-- ==== Sys2Proof/Word.lean ====
section
/-! DEFINITION. The word types of the block (spec 00_scope.md R6, R7): a Word64, a Byte and a 32-bit bus word. -/

namespace Sys2Proof

/-- R6 `Word64`: 64 bits, bit 0 least significant, unsigned unless a rule says otherwise. `BitVec`'s `+`, `-`, `*`,
`^^^`, `&&&`, `|||`, `>>>` (logical) and `<<<` are the operators of R7. -/
abbrev Word := BitVec 64

/-- R6 `Byte`: 8 bits. -/
abbrev Byte := BitVec 8

/-- A 32-bit bus word: a command word (30_encoding.md R60) or STATUS (10_state.md R25). -/
abbrev Word32 := BitVec 32

end Sys2Proof
end

