-- ==== Sys2Proof/Syntax.lean ====
section
/-! DEFINITION. The commands of the block (30_encoding.md R61, opcode_table.json). A command word carries no immediate
and no register number (R63), so no constructor has an argument. -/

namespace Sys2Proof

/-- The twelve commands of R61, one constructor per row of opcode_table.json. -/
inductive Instr where
  /-- 0x01, 40_bit_primitives.md R73 -/
  | rotr
  /-- 0x02, 40_bit_primitives.md R74 -/
  | shiftmix
  /-- 0x03, 41_combiners.md R82 -/
  | hashlen16
  /-- 0x04, 41_combiners.md R83 -/
  | hash128to64
  /-- 0x10, 42_length_kernels.md R97 -/
  | hash64
  /-- 0x11, 42_length_kernels.md R98 -/
  | hashlen0to16
  /-- 0x12, 42_length_kernels.md R99 -/
  | hashlen17to32
  /-- 0x13, 42_length_kernels.md R100 -/
  | hashlen33to64
  /-- 0x14, 44_long_kernel.md R127 -/
  | hashlong
  /-- 0x20, 43_weak_hash.md R112 -/
  | weakhash32
  /-- 0x30, 45_bucketer.md R134 -/
  | bucket
  /-- 0x31, 45_bucketer.md R135 -/
  | hashbucket
deriving DecidableEq, Repr

end Sys2Proof
end

