-- ==== Sys2Proof/WellFormed.lean ====
section
/-! DEFINITION. Well-formed commands and command words. An `Instr` has no operand, so every term of it is well formed;
what can be ill formed is a command word, and R62 says when it is. The predicate here is written from R62's list of
UNASSIGNED opcodes, independently of the decoder, which is written from R61's table of assigned ones. -/

namespace Sys2Proof

/-- R62 (b): the unassigned OPCODE values, 0x00, 0x05 to 0x0F, 0x15 to 0x1F, 0x21 to 0x2F and 0x32 to 0xFF. -/
def opcodeUnassigned (op : Nat) : Bool :=
  op == 0x00 || (0x05 ≤ op && op ≤ 0x0F) || (0x15 ≤ op && op ≤ 0x1F) || (0x21 ≤ op && op ≤ 0x2F)
    || (0x32 ≤ op && op ≤ 0xFF)

/-- R62 (a): the reserved field RSVD = CMD[31:8] holds 0. -/
def reservedClear (w : Word32) : Bool := w.toNat / 256 == 0

/-- A legal command word: neither clause (a) nor clause (b) of R62 makes it illegal. -/
def commandWordWf (w : Word32) : Bool := reservedClear w && !opcodeUnassigned (w.toNat % 256)

/-- Every command is well formed: R63 gives it no operand to check. -/
def Instr.wf (_ : Instr) : Bool := true

end Sys2Proof
end

