-- ==== Sys2Proof/Decode.lean ====
section
/-! DEFINITION. Decoding and encoding of command words (30_encoding.md R60 to R64). -/

namespace Sys2Proof

/-- Why a command word is illegal (R62), or why bytes hold no command word. -/
inductive Reject where
  /-- R62 (a): RSVD is not 0. -/
  | reservedNotZero
  /-- R62 (b): OPCODE is not assigned. -/
  | unassignedOpcode
  /-- Fewer than the four bytes of a command word (R60: no other length exists). -/
  | tooShort
deriving DecidableEq, Repr

/-- R60: OPCODE = CMD[7:0]. -/
def opcodeField (w : Word32) : BitVec 8 := w.extractLsb' 0 8

/-- R60: RSVD = CMD[31:8]. -/
def rsvdField (w : Word32) : BitVec 24 := w.extractLsb' 8 24

/-- R61: the opcode map. -/
def decodeOpcode (op : BitVec 8) : Option Instr :=
  if op = 0x01#8 then some .rotr
  else if op = 0x02#8 then some .shiftmix
  else if op = 0x03#8 then some .hashlen16
  else if op = 0x04#8 then some .hash128to64
  else if op = 0x10#8 then some .hash64
  else if op = 0x11#8 then some .hashlen0to16
  else if op = 0x12#8 then some .hashlen17to32
  else if op = 0x13#8 then some .hashlen33to64
  else if op = 0x14#8 then some .hashlong
  else if op = 0x20#8 then some .weakhash32
  else if op = 0x30#8 then some .bucket
  else if op = 0x31#8 then some .hashbucket
  else none

/-- R64: decoding is total and depends on the word alone. RSVD is looked at first: a word with RSVD not 0 is illegal
whatever OPCODE holds (R62 (a)). -/
def decode (w : Word32) : Except Reject Instr :=
  if rsvdField w ≠ 0 then .error .reservedNotZero
  else match decodeOpcode (opcodeField w) with
    | some i => .ok i
    | none => .error .unassignedOpcode

/-- A command word from its four bytes, lowest address first (20_memory.md R43: byte j carries bits [8j+7:8j]). -/
def wordOfBytes (b0 b1 b2 b3 : Byte) : Word32 :=
  b0.setWidth 32 ||| (b1.setWidth 32 <<< 8) ||| (b2.setWidth 32 <<< 16) ||| (b3.setWidth 32 <<< 24)

/-- Decoding of bytes, total on any list: the first four bytes are the command word; the rest is handed back. -/
def decodeBytes : List Byte → Except Reject (Instr × List Byte)
  | b0 :: b1 :: b2 :: b3 :: rest =>
    match decode (wordOfBytes b0 b1 b2 b3) with
    | .ok i => .ok (i, rest)
    | .error e => .error e
  | _ => .error .tooShort

/-- R61: the OPCODE of a command. -/
def opcodeOf : Instr → BitVec 8
  | .rotr => 0x01
  | .shiftmix => 0x02
  | .hashlen16 => 0x03
  | .hash128to64 => 0x04
  | .hash64 => 0x10
  | .hashlen0to16 => 0x11
  | .hashlen17to32 => 0x12
  | .hashlen33to64 => 0x13
  | .hashlong => 0x14
  | .weakhash32 => 0x20
  | .bucket => 0x30
  | .hashbucket => 0x31

/-- R60: the command word of a command, RSVD = 0 above its OPCODE. -/
def encode (i : Instr) : Word32 := (0 : BitVec 24) ++ opcodeOf i

/-- The four bytes of a command word, lowest address first (R43). -/
def bytesOfWord (w : Word32) : List Byte :=
  [w.extractLsb' 0 8, w.extractLsb' 8 8, w.extractLsb' 16 8, w.extractLsb' 24 8]

/-- The command word that the table's bits stand for: every command is one 32-bit word (R60), so the bits from `nbits`
up are 0, and a number of more than 32 bits is no command word. -/
def tableWord (nbits w : Nat) : Option Word32 :=
  if w % 2 ^ nbits < 2 ^ 32 then some (BitVec.ofNat 32 (w % 2 ^ nbits)) else none

/-- What the decoder reads from an instruction whose bits are `w`, numbered as opcode_table.json numbers them. -/
def decodeTableWord (nbits w : Nat) : Option Instr :=
  match tableWord nbits w with
  | none => none
  | some c =>
    match decodeBytes (bytesOfWord c) with
    | .ok (i, _) => some i
    | .error _ => none

end Sys2Proof
end

