-- ==== Sys2Proof/Config.lean ====
section
/-! DEFINITION. The implementation parameters of 00_scope.md R5, and the values the spec leaves free.

The parameters are plain data that `State` carries and no step changes, so a statement about every state is a
statement about every legal value of every parameter (R5: "Every rule in this spec holds for every legal value of
every OPEN parameter"). The free values are opaque constants: no proof can see what they are. -/

namespace Sys2Proof

/-- R5 `A33_MUL`: the multiplier of the first word in the 33-to-64-byte kernel is one of K1 and K2 (90_conflicts.md C1). -/
inductive A33Mul where
  | k1
  | k2
deriving DecidableEq, Repr

/-- The parameters of R5 that the block itself reads. The bounds R5 puts on them stand as proofs, so an illegal
value cannot be built. `P_SALT` is the host's and an argument of `payload`; `W` is fixed at 64. -/
structure Config where
  /-- R5 `P_BUF_BYTES`: capacity of BUF in bytes; OPEN, at least 1. -/
  bufBytes : Nat
  /-- R5 `P_BUCKETS`: the modulus of the bucket reducer, from 1 to 2^64-1. -/
  buckets : Nat
  /-- R5 `A33_MUL`. -/
  a33 : A33Mul
  /-- R5 `P_BASE`: host bus address of the window; OPEN. -/
  base : Nat
  bufBytes_pos : 1 ≤ bufBytes
  buckets_pos : 1 ≤ buckets
  buckets_lt : buckets < 2 ^ 64
deriving DecidableEq, Repr

/-- A free Word64: a read of RES0 or RES1 while BUSY = 1 (70_reset_and_hazards.md R155) and the register writes of a
command that read an unwritten byte (R153). Applied to `State.draws`. Log entry 3. -/
opaque Config.freeWord : Nat → Word

/-- A free Byte: a host read of an unwritten BUF byte (20_memory.md R48 (b)). Applied to `State.draws`. Log entry 3. -/
opaque Config.freeByte : Nat → Byte

end Sys2Proof
end

