-- ==== Sys2Proof/Machine/Parameters.lean ====
section
/-! DEFINITION. The values of the parameters of 00_scope.md R5 that `State.reset` carries. -/

namespace Sys2Proof

/-- The configuration of `State.reset`: R5's defaults for `P_BUCKETS` (100) and `A33_MUL` (K1); for the two OPEN
parameters the capacity 256 of the spec's own vectors and base address 0. DESIGN CHOICE (unsafe for a claim about
`State.reset` alone): log entry 1. -/
def Config.default : Config where
  bufBytes := 256
  buckets := 100
  a33 := .k1
  base := 0
  bufBytes_pos := by decide
  buckets_pos := by decide
  buckets_lt := by decide

end Sys2Proof
end

