-- ==== Sys2Proof/Machine/State.lean ====
section
/-! DEFINITION. The block's state (10_state.md R20 to R34), the host beside it (00_scope.md R12), and reset. -/

namespace Sys2Proof.Machine

/-- The names of the fault record FAULTS (10_state.md R34, 60_exceptions.md R144). A step RECORDS a fault in
`State.faults` and goes on, as the spec says; no step of this model stops with one. Safe: a claim about a host program
takes "FAULTS is empty" as a premise. -/
inductive Fault where
  /-- Recorded by a host access that is not in R41's table (R42). The access has no effect. Safe. -/
  | busError
  /-- Recorded by a host write of CMD, LEN, OFF, OPA, OPB, OPM or BUF while BUSY = 1 (R154). The write is not performed.
  Safe. -/
  | busyWrite
  /-- Recorded by a core read of an unwritten BUF byte (R48). The command completes with free results. Safe. -/
  | unwrittenRead
deriving DecidableEq, Repr

/-- Why a step is refused. -/
inductive Refusal where
  /-- Raised by `exec`'s arm of a command that has no meaning yet (none in this model). Safe. -/
  | notModelled (mnemonic : String)
  /-- Raised by a command whose kernel would read outside BUF[0..LEN): 20_memory.md R47, "A model that finds a read
  outside BUF[0..LEN) has a transcription error, not a chip behaviour. It should refuse the command." No command of
  this model reaches it. Safe. -/
  | outOfBoundsRead
deriving DecidableEq, Repr

/-- R34: the set of recorded fault names. -/
structure FaultSet where
  busError : Bool
  busyWrite : Bool
  unwrittenRead : Bool
deriving DecidableEq, Repr

/-- R151: a run starts with FAULTS empty. -/
def FaultSet.empty : FaultSet := { busError := false, busyWrite := false, unwrittenRead := false }

/-- R33: the accumulators of the long-input kernel. -/
structure KernelState where
  x : Word
  y : Word
  z : Word
  v0 : Word
  v1 : Word
  w0 : Word
  w1 : Word
deriving DecidableEq, Repr

/-- The value the model names for KernelState after reset. The spec leaves it unspecified and unobservable (R33,
R150). DESIGN CHOICE: log entry 2. -/
def KernelState.zero : KernelState := { x := 0, y := 0, z := 0, v0 := 0, v1 := 0, w0 := 0, w1 := 0 }

/-- R31, R48: the WRITTEN bytes of BUF, index and value, indices strictly rising. An index that is not listed is
unwritten: it reads as no value. -/
abbrev Memory := List Host.Cell

/-- One statement of the host: a bus access of 20_memory.md R41 at a window offset, the poll loop `wait` of
30_encoding.md R65, or the platform's reset signal (R55). -/
inductive HostStmt where
  /-- `MemRead(off, size)` -/
  | memRead (off size : Nat)
  /-- `MemWrite(off, size, v)`: the low `8 * size` bits of `v` are written. -/
  | memWrite (off size : Nat) (v : Word)
  /-- R65 `wait`: read STATUS until BUSY = 0. -/
  | wait
  /-- The reset input is asserted (R150). -/
  | reset
deriving DecidableEq, Repr

/-- R12: who steps next. -/
inductive Turn where
  | host (stmt : HostStmt)
  | core
deriving DecidableEq, Repr

/-- The whole state: the block's (R20), its configuration (R5), and, as the model's own fields, the host beside it. -/
structure State where
  /-- R5: the parameters; BUFCAP and NBUCKETS (R30) read two of them. No step changes them. -/
  cfg : Config
  /-- R25: STATUS, the word the host reads. -/
  status : Word32
  /-- R26 -/
  len : Word
  /-- R27 -/
  off : Word
  /-- R28 -/
  opa : Word
  /-- R28 -/
  opb : Word
  /-- R28 -/
  opm : Word
  /-- R29 -/
  res0 : Word
  /-- R29 -/
  res1 : Word
  /-- R31: BUF. -/
  buf : Memory
  /-- R32: PENDING. -/
  pending : Option Word32
  /-- R33: KernelState. -/
  kernel : KernelState
  /-- R34: FAULTS. -/
  faults : FaultSet
  /-- The model's own: the turns still to be taken, the host's statements among the core's turns, next first. Every
  schedule of R12 and R157 is such a list. Log entry 4. -/
  turns : List Turn
  /-- The model's own: what the host's reads returned, latest first (R55 "what the host gets back"). Log entry 5. -/
  got : List Word
  /-- The model's own: how many free values have been drawn. Log entry 3. -/
  draws : Nat
deriving DecidableEq, Repr

/-- R150, R151: the state reset leaves, for a block of configuration `c`, with FAULTS empty and an idle host. -/
def State.powerOn (c : Config) : State where
  cfg := c
  status := 0
  len := 0
  off := 0
  opa := 0
  opb := 0
  opm := 0
  res0 := 0
  res1 := 0
  buf := []
  pending := none
  kernel := KernelState.zero
  faults := FaultSet.empty
  turns := []
  got := []
  draws := 0

/-- R151: the start of a run, at the configuration of log entry 1. -/
def State.reset : State := State.powerOn Config.default

end Sys2Proof.Machine
end

