-- ==== Sys2Proof/Machine/Flags.lean ====
section
/-! DEFINITION. STATUS, the block's only status (10_state.md R23, R25), and the error codes (60_exceptions.md R141). The
block has no condition codes and no carry or overflow flag (R23). -/

namespace Sys2Proof.Machine

/-- R141: the errors a command can end with (NONE, 0x00, is no error). -/
inductive ErrCode where
  | illegalCmd
  | lenCapacity
  | lenBand
  | offRange
deriving DecidableEq, Repr

/-- R141: the ERRCODE value of an error. -/
def errCodeValue : ErrCode → Byte
  | .illegalCmd => 0x01
  | .lenCapacity => 0x02
  | .lenBand => 0x03
  | .offRange => 0x04

/-- R25: BUSY = STATUS[0]. -/
def statusBusy (st : Word32) : Bool := st.getLsbD 0

/-- R25: DONE = STATUS[1]. -/
def statusDone (st : Word32) : Bool := st.getLsbD 1

/-- R25: ERR = STATUS[2]. -/
def statusErr (st : Word32) : Bool := st.getLsbD 2

/-- R25: ERRCODE = STATUS[15:8]. -/
def statusErrCode (st : Word32) : Byte := st.extractLsb' 8 8

/-- R25: the STATUS word of its fields, the reserved bits [7:3] and [31:16] at 0. -/
def statusWord (busy done err : Bool) (code : Byte) : Word32 :=
  (code.setWidth 32 <<< 8) ||| (if err then 4 else 0) ||| (if done then 2 else 0) ||| (if busy then 1 else 0)

/-- R153 (1): STATUS at issue. -/
def statusIssued : Word32 := statusWord true false false 0

/-- R153 (2): STATUS at a completion without error. -/
def statusSuccess : Word32 := statusWord false true false 0

/-- R143: STATUS at a completion with error `c`. -/
def statusError (c : ErrCode) : Word32 := statusWord false true true (errCodeValue c)

/-- R25 "Legal values": the combinations of fields that are ever read. -/
def statusLegal (st : Word32) : Bool :=
  st.extractLsb' 3 5 == 0 && st.extractLsb' 16 16 == 0
    && (!statusBusy st || (!statusDone st && !statusErr st && statusErrCode st == 0))
    && (statusErr st || statusErrCode st == 0)
    && (!statusErr st
        || (statusDone st && 1 ≤ (statusErrCode st).toNat && (statusErrCode st).toNat ≤ 4))

end Sys2Proof.Machine
end

