-- ==== Sys2Proof/Machine/Ops.lean ====
section
/-! DEFINITION. The named operations the meanings share: BUF and its byte order, the core's reads, the free values, and
the ways a command completes, the error completion of R143 among them. -/

namespace Sys2Proof.Machine

/-! ### BUF -/

/-- The byte at index `a`, or no value where it is unwritten (20_memory.md R48). -/
def Memory.read : Memory → Nat → Option Byte
  | [], _ => none
  | (k, v) :: m, a => if k = a then some v else Memory.read m a

/-- Write the byte at index `a`, which makes it written (R48); the indices stay strictly rising. -/
def Memory.write : Memory → Nat → Byte → Memory
  | [], a, b => [(a, b)]
  | (k, v) :: m, a, b =>
    if a < k then (a, b) :: (k, v) :: m
    else if a = k then (a, b) :: m
    else (k, v) :: Memory.write m a b

/-- The canonical form of BUF: indices strictly rising. An unlisted index reads as no value, so no listed byte can equal
what an unlisted index reads as. -/
abbrev Memory.wf (m : Memory) : Prop := m.Pairwise (fun p q => p.1 < q.1)

/-- Every written index is one of BUF[0..cap) (R31). -/
abbrev Memory.within (m : Memory) (cap : Nat) : Prop := ∀ p ∈ m, p.1 < cap

/-! ### Byte order -/

/-- R43: byte `j` of a word carries bits [8j+7:8j]. -/
def byteOf (v : Word) (j : Nat) : Byte := v.extractLsb' (8 * j) 8

/-- R45, R46: the little-endian word of bytes, the first at bits [7:0], zero-extended to 64 bits. -/
def leWord : List Byte → Word
  | [] => 0
  | b :: bs => b.setWidth 64 ||| (leWord bs <<< 8)

/-- R43: write the bytes `bs` at indices `a`, `a + 1`, and so on. -/
def Memory.writeBytes : Memory → Nat → List Byte → Memory
  | m, _, [] => m
  | m, a, b :: bs => Memory.writeBytes (m.write a b) (a + 1) bs

/-- R43: the eight bytes of a word, byte 0 first. -/
def bytesOf (v : Word) : List Byte := [byteOf v 0, byteOf v 1, byteOf v 2, byteOf v 3, byteOf v 4, byteOf v 5, byteOf v 6, byteOf v 7]

/-! ### The core's reads (R44 to R48) -/

/-- Why a core read gives no value. -/
inductive ReadFail where
  /-- R48 (a): it covers an unwritten byte. -/
  | unwritten
  /-- R47: it is not inside BUF[0..LEN). -/
  | outOfBounds
deriving DecidableEq, Repr

/-- The input of a command: BUF and n = LEN; the command may read BUF[0..n) only (R47). -/
structure Input where
  buf : Memory
  len : Nat
deriving DecidableEq, Repr

/-- One byte of the input. -/
def readByte (b : Input) (o : Nat) : Except ReadFail Byte :=
  match b.buf.read o with
  | some v => .ok v
  | none => .error .unwritten

/-- `k` bytes of the input from offset `o` on. -/
def readBytes (b : Input) (o : Nat) : Nat → Except ReadFail (List Byte)
  | 0 => .ok []
  | k + 1 => do
    let v ← readByte b o
    let vs ← readBytes b (o + 1) k
    .ok (v :: vs)

/-- R44, for `o < LEN`. -/
def read8 (b : Input) (o : Nat) : Except ReadFail Byte :=
  if o < b.len then readByte b o else .error .outOfBounds

/-- R45, for `o + 4 <= LEN`: little-endian, zero-extended. -/
def read32 (b : Input) (o : Nat) : Except ReadFail Word :=
  if o + 4 ≤ b.len then do
    let vs ← readBytes b o 4
    .ok (leWord vs)
  else .error .outOfBounds

/-- R46, for `o + 8 <= LEN`: little-endian. -/
def read64 (b : Input) (o : Nat) : Except ReadFail Word :=
  if o + 8 ≤ b.len then do
    let vs ← readBytes b o 8
    .ok (leWord vs)
  else .error .outOfBounds

/-- R6, R7 `zext_64` of a Nat: its value modulo 2^64. -/
def wordOfNat (n : Nat) : Word := BitVec.ofNat 64 n

/-- R7 `zext_64` of a Byte. -/
def wordOfByte (b : Byte) : Word := b.setWidth 64

/-! ### FAULTS -/

/-- R34: add a name to the fault record; none is ever removed. -/
def FaultSet.record (f : FaultSet) : Fault → FaultSet
  | .busError => { f with busError := true }
  | .busyWrite => { f with busyWrite := true }
  | .unwrittenRead => { f with unwrittenRead := true }

/-- Whether a name is recorded. -/
def FaultSet.has (f : FaultSet) : Fault → Bool
  | .busError => f.busError
  | .busyWrite => f.busyWrite
  | .unwrittenRead => f.unwrittenRead

/-- R144: record a fault and change nothing else. -/
def State.recordFault (s : State) (f : Fault) : State := { s with faults := s.faults.record f }

/-! ### Free values -/

/-- Seven free words for KernelState, from draw `d` on. -/
def freeKernel (d : Nat) : KernelState where
  x := Config.freeWord d
  y := Config.freeWord (d + 1)
  z := Config.freeWord (d + 2)
  v0 := Config.freeWord (d + 3)
  v1 := Config.freeWord (d + 4)
  w0 := Config.freeWord (d + 5)
  w1 := Config.freeWord (d + 6)

/-! ### Completion (70_reset_and_hazards.md R153 (2)) -/

/-- The register writes of a command's pseudocode: RES0 always; RES1 where the rule writes it; KernelState where the
long-input kernel ran. -/
structure Writes where
  res0 : Word
  res1 : Option Word := none
  kernel : Option KernelState := none
deriving DecidableEq, Repr

/-- R153 (2): a completion without error applies the writes, empties PENDING and reports success. -/
def State.succeed (s : State) (w : Writes) : State :=
  { s with
    res0 := w.res0
    res1 := w.res1.getD s.res1
    kernel := w.kernel.getD s.kernel
    pending := none
    status := statusSuccess }

/-- R143: a completion with error `c`: PENDING and STATUS change, nothing else. The block's one error entry; there is no
trap and no return (R140). -/
def State.raiseError (s : State) (c : ErrCode) : State :=
  { s with pending := none, status := statusError c }

/-- R48 (a), R153 (2): a command that read an unwritten byte records UnwrittenRead and completes; every register its
rule writes takes a free value. `writesRes1` and `runsKernel` say which those are beside RES0. -/
def State.completeUnspecified (s : State) (writesRes1 runsKernel : Bool) : State :=
  { s with
    res0 := Config.freeWord s.draws
    res1 := if writesRes1 then Config.freeWord (s.draws + 1) else s.res1
    kernel := if runsKernel then freeKernel (s.draws + 2) else s.kernel
    pending := none
    status := statusSuccess
    faults := s.faults.record .unwrittenRead
    draws := s.draws + 9 }

/-- R153 (2): complete a command whose pseudocode read the buffer. -/
def complete (s : State) (writesRes1 runsKernel : Bool) :
    Except ReadFail Writes → Host.Outcome State Fault Refusal
  | .ok w => .next (s.succeed w)
  | .error .unwritten => .next (s.completeUnspecified writesRes1 runsKernel)
  | .error .outOfBounds => .refused .outOfBoundsRead

/-- R141, R142: error LEN_CAPACITY when LEN > P_BUF_BYTES, before every other check of the command and every read. -/
def checkCapacity (s : State) (go : Host.Outcome State Fault Refusal) : Host.Outcome State Fault Refusal :=
  if s.len.toNat > s.cfg.bufBytes then .next (s.raiseError .lenCapacity) else go

/-- R141: error `c` (LEN_BAND or OFF_RANGE) unless the command's own check holds. -/
def checkThat (s : State) (ok : Bool) (c : ErrCode) (go : Host.Outcome State Fault Refusal) :
    Host.Outcome State Fault Refusal :=
  if ok then go else .next (s.raiseError c)

/-- R153 (2), R62: the completion of an illegal command word. -/
def completeIllegal (s : State) : Host.Outcome State Fault Refusal := .next (s.raiseError .illegalCmd)

end Sys2Proof.Machine
end

