-- ==== Sys2Proof/Machine/Operands.lean ====
section
/-! DEFINITION. Operand assembly (30_encoding.md R63): every operand of a command comes from a fixed register, with no
scaling, shifting or sign extension. -/

namespace Sys2Proof.Machine

/-- R63: `value` of ROTR and SHIFTMIX. -/
def operandValue (s : State) : Word := s.opa

/-- R63: `shift` of ROTR, all 64 bits. -/
def operandShift (s : State) : Word := s.opb

/-- R63: `u` of HASHLEN16 and HASH128TO64. -/
def operandU (s : State) : Word := s.opa

/-- R63: `v` of HASHLEN16 and HASH128TO64. -/
def operandV (s : State) : Word := s.opb

/-- R63: `mul` of HASHLEN16. -/
def operandMul (s : State) : Word := s.opm

/-- R63: `buf` with length `n`, that is BUF[0..LEN) with n = LEN. -/
def operandInput (s : State) : Input := { buf := s.buf, len := s.len.toNat }

/-- R63: `offset` of WEAKHASH32. -/
def operandOffset (s : State) : Nat := s.off.toNat

/-- R63: the seed `a` of WEAKHASH32. -/
def operandSeedA (s : State) : Word := s.opa

/-- R63: the seed `b` of WEAKHASH32. -/
def operandSeedB (s : State) : Word := s.opb

/-- R63: the hash `h` of BUCKET. -/
def operandHash (s : State) : Word := s.opa

end Sys2Proof.Machine
end

