-- ==== Sys2Proof/Machine/BitPrimitives.lean ====
section
/-! DEFINITION. The mixing constants (00_scope.md R9), the 64-bit rotator and the shift-mix (40_bit_primitives.md R70 to
R74), and the commands ROTR and SHIFTMIX. -/

namespace Sys2Proof.Machine

/-- R9 -/
def K0 : Word := 0xC3A5C85C97CB3127

/-- R9 -/
def K1 : Word := 0xB492B66FBE98F273

/-- R9 -/
def K2 : Word := 0x9AE16A3B2F90404F

/-- R9 -/
def KMUL : Word := 0x9DDFEA08EB382D69

/-- R5 `A33_MUL` as a word. -/
def a33Word : A33Mul → Word
  | .k1 => K1
  | .k2 => K2

/-- R70: rotate right, the shift reduced modulo 64 first, a reduced shift of 0 giving the value unchanged. -/
def rotr (value shift : Word) : Word :=
  let s := shift.toNat % 64
  if s = 0 then value else (value >>> s) ||| (value <<< (64 - s))

/-- R71: `value ^ (value >> 47)`, the logical shift (90_conflicts.md C2). -/
def shiftMix (value : Word) : Word := value ^^^ (value >>> 47)

/-- R73 ROTR. -/
def execRotr (s : State) : Host.Outcome State Fault Refusal :=
  .next (s.succeed { res0 := rotr (operandValue s) (operandShift s) })

/-- R74 SHIFTMIX. -/
def execShiftmix (s : State) : Host.Outcome State Fault Refusal :=
  .next (s.succeed { res0 := shiftMix (operandValue s) })

end Sys2Proof.Machine
end

