-- ==== Sys2Proof/Machine/Combiners.lean ====
section
/-! DEFINITION. The fixed-width combiners (41_combiners.md R80 to R83) and the commands HASHLEN16 and HASH128TO64. -/

namespace Sys2Proof.Machine

/-- R80: three multiplications and two shift-mixes (90_conflicts.md C5). -/
def hashLen16 (u v mul : Word) : Word :=
  let a := shiftMix ((u ^^^ v) * mul)
  let b := shiftMix ((v ^^^ a) * mul)
  b * mul

/-- R81: `hashLen16` with the multiplier KMUL, the first argument as `u`. -/
def hash128to64 (u v : Word) : Word := hashLen16 u v KMUL

/-- R82 HASHLEN16. -/
def execHashlen16 (s : State) : Host.Outcome State Fault Refusal :=
  .next (s.succeed { res0 := hashLen16 (operandU s) (operandV s) (operandMul s) })

/-- R83 HASH128TO64; OPM is not read. -/
def execHash128to64 (s : State) : Host.Outcome State Fault Refusal :=
  .next (s.succeed { res0 := hash128to64 (operandU s) (operandV s) })

end Sys2Proof.Machine
end

