-- ==== Sys2Proof/Machine/WeakHash.lean ====
section
/-! DEFINITION. The weak-32-byte block mixer (43_weak_hash.md R110 to R112) and the command WEAKHASH32. -/

namespace Sys2Proof.Machine

/-- R110: the word form. Each line sees the values the lines above it wrote. -/
def weakHash32Words (w x y z a b : Word) : Word × Word :=
  let a := a + w
  let b := rotr (b + a + z) 21
  let c := a
  let a := a + x + y
  let b := b + rotr a 44
  (a + z, b + c)

/-- R111: the buffer form, for `o + 32 <= LEN`. -/
def weakHash32 (i : Input) (o : Nat) (a b : Word) : Except ReadFail (Word × Word) := do
  let w ← read64 i o
  let x ← read64 i (o + 8)
  let y ← read64 i (o + 16)
  let z ← read64 i (o + 24)
  .ok (weakHash32Words w x y z a b)

/-- R112: the check of OFF against LEN, on exact integers: OFF_RANGE unless OFF + 32 <= LEN. -/
def offsetInRange (s : State) : Bool := !(s.off.toNat > s.len.toNat || s.len.toNat - s.off.toNat < 32)

/-- R112: the command's register writes. -/
def weakHashWrites (s : State) : Except ReadFail Writes := do
  let r ← weakHash32 (operandInput s) (operandOffset s) (operandSeedA s) (operandSeedB s)
  .ok { res0 := r.1, res1 := some r.2 }

/-- R112 WEAKHASH32. -/
def execWeakhash32 (s : State) : Host.Outcome State Fault Refusal :=
  checkCapacity s (checkThat s (offsetInRange s) .offRange (complete s true false (weakHashWrites s)))

end Sys2Proof.Machine
end

