-- ==== Sys2Proof/Machine/LongKernel.lean ====
section
/-! DEFINITION. The long-input kernel (44_long_kernel.md R120 to R127) and the command HASHLONG. -/

namespace Sys2Proof.Machine

/-- What a hash gives: its value, and KernelState as the long-input kernel left it where that kernel ran (R33). -/
structure Hashed where
  value : Word
  kernel : Option KernelState := none
deriving DecidableEq, Repr

/-- R120: KernelState before any stride, from the input's first word. -/
def kernelInit (first : Word) : KernelState :=
  let seed : Word := 81
  let y := seed * K1 + 113
  let z := shiftMix (y * K2 + 113) * K2
  { x := seed * K2 + first, y := y, z := z, v0 := 0, v1 := 0, w0 := 0, w1 := 0 }

/-- R122: one stride at offset `o` with multiplier `m`; `t` is true for the tail pass only. -/
def stride (i : Input) (o : Nat) (m : Word) (t : Bool) (k : KernelState) : Except ReadFail KernelState := do
  let r8 ← read64 i (o + 8)
  let x := rotr (k.x + k.y + k.v0 + r8) 37 * m
  let r48 ← read64 i (o + 48)
  let y := rotr (k.y + k.v1 + r48) 42 * m
  let r40 ← read64 i (o + 40)
  let x := if t then x ^^^ (k.w1 * 9) else x ^^^ k.w1
  let y := if t then y + k.v0 * 9 + r40 else y + k.v0 + r40
  let z := rotr (k.z + k.w0) 33 * m
  let v ← weakHash32 i o (k.v1 * m) (x + k.w0)
  let r16 ← read64 i (o + 16)
  let w ← weakHash32 i (o + 32) (z + k.w1) (y + r16)
  .ok { x := z, y := y, z := x, v0 := v.1, v1 := v.2, w0 := w.1, w1 := w.2 }

/-- R121: `count` strides at offsets `o`, `o + 64`, and so on, with multiplier K1 and tail = false. -/
def strides (i : Input) : Nat → Nat → KernelState → Except ReadFail KernelState
  | 0, _, k => .ok k
  | count + 1, o, k => do
    let k' ← stride i o K1 false k
    strides i count (o + 64) k'

/-- R121: how many strides the loop runs, `(n - 1) div 64`. -/
def strideCount (n : Nat) : Nat := (n - 1) / 64

/-- R123: the multiplier of the tail pass, from z as the loop left it. -/
def tailMul (k : KernelState) : Word := K1 + ((k.z &&& 0xFF) <<< 1)

/-- R123: the accumulators before the tail pass. -/
def tailPrepare (n : Nat) (k : KernelState) : KernelState :=
  let w0 := k.w0 + wordOfNat ((n - 1) % 64)
  let v0 := k.v0 + w0
  let w0 := w0 + v0
  { k with v0 := v0, w0 := w0 }

/-- R125: the kernel's value from KernelState after the tail pass. -/
def finalCombine (k : KernelState) (mul : Word) : Word :=
  hashLen16 (hashLen16 k.v0 k.w0 mul + shiftMix k.y * K0 + k.z) (hashLen16 k.v1 k.w1 mul + k.x) mul

/-- R126: the long-input kernel, for n >= 65: R120, the loop of R121, R123, the tail pass of R124, and R125. -/
def hashLong (i : Input) : Except ReadFail Hashed := do
  let first ← read64 i 0
  let k ← strides i (strideCount i.len) 0 (kernelInit first)
  let mul := tailMul k
  let k ← stride i (i.len - 64) mul true (tailPrepare i.len k)
  .ok { value := finalCombine k mul, kernel := some k }

/-- The register writes of a command that writes a hash to RES0. -/
def hashWrites (r : Except ReadFail Hashed) : Except ReadFail Writes := do
  let h ← r
  .ok { res0 := h.value, kernel := h.kernel }

/-- R127 HASHLONG. -/
def execHashlong (s : State) : Host.Outcome State Fault Refusal :=
  checkCapacity s (checkThat s (65 ≤ s.len.toNat) .lenBand
    (complete s false true (hashWrites (hashLong (operandInput s)))))

end Sys2Proof.Machine
end

