-- ==== Sys2Proof/Machine/LengthKernels.lean ====
section
/-! DEFINITION. The length dispatch and the three short-input kernels (42_length_kernels.md R90 to R96), and the commands
HASH64, HASHLEN0TO16, HASHLEN17TO32 and HASHLEN33TO64 (R97 to R100). -/

namespace Sys2Proof.Machine

/-- The per-length multiplier `K2 + n*2` of R91, R92, R95 and R96. -/
def lengthMul (n : Nat) : Word := K2 + wordOfNat n * 2

/-- R91, for 8 <= n <= 16. -/
def hashLen8to16 (i : Input) : Except ReadFail Word := do
  let mul := lengthMul i.len
  let r ← read64 i 0
  let a := r + K2
  let b ← read64 i (i.len - 8)
  let c := rotr b 37 * mul + a
  let d := (rotr a 25 + b) * mul
  .ok (hashLen16 c d mul)

/-- R92, for 4 <= n <= 7. -/
def hashLen4to7 (i : Input) : Except ReadFail Word := do
  let mul := lengthMul i.len
  let a ← read32 i 0
  let b ← read32 i (i.len - 4)
  .ok (hashLen16 (wordOfNat i.len + (a <<< 3)) b mul)

/-- R93, for 1 <= n <= 3: first, middle and last byte. -/
def hashLen1to3 (i : Input) : Except ReadFail Word := do
  let a ← read8 i 0
  let b ← read8 i (i.len / 2)
  let c ← read8 i (i.len - 1)
  let y := wordOfByte a + (wordOfByte b <<< 8)
  let z := wordOfNat i.len + (wordOfByte c <<< 2)
  .ok (shiftMix ((y * K2) ^^^ (z * K0)) * K2)

/-- R91 to R94, for 0 <= n <= 16. -/
def hashLen0to16 (i : Input) : Except ReadFail Word :=
  if 8 ≤ i.len then hashLen8to16 i
  else if 4 ≤ i.len then hashLen4to7 i
  else if 1 ≤ i.len then hashLen1to3 i
  else .ok K2

/-- R95, for 17 <= n <= 32. -/
def hashLen17to32 (i : Input) : Except ReadFail Word := do
  let mul := lengthMul i.len
  let r0 ← read64 i 0
  let a := r0 * K1
  let b ← read64 i 8
  let rc ← read64 i (i.len - 8)
  let c := rc * mul
  let rd ← read64 i (i.len - 16)
  let d := rd * K2
  .ok (hashLen16 (rotr (a + b) 43 + rotr c 30 + d) (a + rotr (b + K2) 18 + c) mul)

/-- R96, for 33 <= n <= 64, with the multiplier A33_MUL of the first word. -/
def hashLen33to64 (m : A33Mul) (i : Input) : Except ReadFail Word := do
  let mul := lengthMul i.len
  let r0 ← read64 i 0
  let a := r0 * a33Word m
  let b ← read64 i 8
  let rc ← read64 i (i.len - 8)
  let c := rc * mul
  let rd ← read64 i (i.len - 16)
  let d := rd * K2
  let y := rotr (a + b) 43 + rotr c 30 + d
  let z := hashLen16 y (a + rotr (b + K2) 18 + c) mul
  let re ← read64 i 16
  let e := re * mul
  let f ← read64 i 24
  let rg ← read64 i (i.len - 32)
  let g := (y + rg) * mul
  let rh ← read64 i (i.len - 24)
  let h := (z + rh) * mul
  .ok (hashLen16 (rotr (e + f) 43 + rotr g 30 + h) (e + rotr (f + a) 18 + g) mul)

/-- A short kernel's value as a hash: the long-input kernel did not run. -/
def shortHash (r : Except ReadFail Word) : Except ReadFail Hashed := do
  let v ← r
  .ok { value := v }

/-- R90: the top-level hash; the branch is chosen by n alone, a boundary length belonging to the lower band. -/
def topHash (m : A33Mul) (i : Input) : Except ReadFail Hashed :=
  if i.len ≤ 16 then shortHash (hashLen0to16 i)
  else if i.len ≤ 32 then shortHash (hashLen17to32 i)
  else if i.len ≤ 64 then shortHash (hashLen33to64 m i)
  else hashLong i

/-- R97 HASH64. -/
def execHash64 (s : State) : Host.Outcome State Fault Refusal :=
  checkCapacity s (complete s false (64 < s.len.toNat) (hashWrites (topHash s.cfg.a33 (operandInput s))))

/-- R98 HASHLEN0TO16. -/
def execHashlen0to16 (s : State) : Host.Outcome State Fault Refusal :=
  checkCapacity s (checkThat s (s.len.toNat ≤ 16) .lenBand
    (complete s false false (hashWrites (shortHash (hashLen0to16 (operandInput s))))))

/-- R99 HASHLEN17TO32. -/
def execHashlen17to32 (s : State) : Host.Outcome State Fault Refusal :=
  checkCapacity s (checkThat s (17 ≤ s.len.toNat && s.len.toNat ≤ 32) .lenBand
    (complete s false false (hashWrites (shortHash (hashLen17to32 (operandInput s))))))

/-- R100 HASHLEN33TO64. -/
def execHashlen33to64 (s : State) : Host.Outcome State Fault Refusal :=
  checkCapacity s (checkThat s (33 ≤ s.len.toNat && s.len.toNat ≤ 64) .lenBand
    (complete s false false (hashWrites (shortHash (hashLen33to64 s.cfg.a33 (operandInput s))))))

end Sys2Proof.Machine
end

