-- ==== Sys2Proof/Machine/Bucketer.lean ====
section
/-! DEFINITION. The bucket reducer (45_bucketer.md R131 to R133) and the commands BUCKET and HASHBUCKET (R134, R135). -/

namespace Sys2Proof.Machine

/-- 00_scope.md R8 `s64`: the signed two's-complement reading. -/
def s64 (v : Word) : Int := if v.toNat < 2 ^ 63 then (v.toNat : Int) else (v.toNat : Int) - 2 ^ 64

/-- R131: the absolute value of the signed reading; a negative one is negated as a Word64, so -2^63 gives 2^63. -/
def absVal (h : Word) : Nat := if s64 h ≥ 0 then (s64 h).toNat else (-h).toNat

/-- R132: `absVal(h) mod P_BUCKETS`, on natural numbers. -/
def bucketOf (c : Config) (h : Word) : Nat := absVal h % c.buckets

/-- R133: the bucket of the hash of the input. -/
def bucketHash (c : Config) (i : Input) : Except ReadFail Nat := do
  let h ← topHash c.a33 i
  .ok (bucketOf c h.value)

/-- R134 BUCKET. -/
def execBucket (s : State) : Host.Outcome State Fault Refusal :=
  .next (s.succeed { res0 := wordOfNat (bucketOf s.cfg (operandHash s)) })

/-- R135: the command's register writes, the bucket to RES0 and the hash to RES1. -/
def bucketWrites (c : Config) (r : Except ReadFail Hashed) : Except ReadFail Writes := do
  let h ← r
  .ok { res0 := wordOfNat (bucketOf c h.value), res1 := some h.value, kernel := h.kernel }

/-- R135 HASHBUCKET. -/
def execHashbucket (s : State) : Host.Outcome State Fault Refusal :=
  checkCapacity s (complete s true (64 < s.len.toNat) (bucketWrites s.cfg (topHash s.cfg.a33 (operandInput s))))

end Sys2Proof.Machine
end

