-- ==== Sys2Proof/Machine/Dispatch.lean ====
section
/-! DEFINITION. One arm per command: the completion step of R153 (2) for a legal command word. -/

namespace Sys2Proof.Machine

def exec (i : Instr) (s : State) : Host.Outcome State Fault Refusal :=
  match i with
  | .rotr => Sys2Proof.Machine.execRotr s
  | .shiftmix => Sys2Proof.Machine.execShiftmix s
  | .hashlen16 => Sys2Proof.Machine.execHashlen16 s
  | .hash128to64 => Sys2Proof.Machine.execHash128to64 s
  | .hash64 => Sys2Proof.Machine.execHash64 s
  | .hashlen0to16 => Sys2Proof.Machine.execHashlen0to16 s
  | .hashlen17to32 => Sys2Proof.Machine.execHashlen17to32 s
  | .hashlen33to64 => Sys2Proof.Machine.execHashlen33to64 s
  | .hashlong => Sys2Proof.Machine.execHashlong s
  | .weakhash32 => Sys2Proof.Machine.execWeakhash32 s
  | .bucket => Sys2Proof.Machine.execBucket s
  | .hashbucket => Sys2Proof.Machine.execHashbucket s

end Sys2Proof.Machine
end

