-- ==== Sys2Proof/Machine/Completion.lean ====
section
/-! DEFINITION. The core's step: the completion of a pending command word (70_reset_and_hazards.md R153 (2)). -/

namespace Sys2Proof.Machine

/-- R153 (2): the core's completion of the word `w`. -/
def coreStep (w : Word32) (s : State) : Host.Outcome State Fault Refusal :=
  match decode w with
  | .ok i => exec i s
  | .error _ => completeIllegal s

end Sys2Proof.Machine
end

