-- ==== Sys2Proof/Machine/Window.lean ====
section
/-! DEFINITION. The host's side: the register window and its accesses (20_memory.md R40 to R43, R48, R49), the issue of a
command (70_reset_and_hazards.md R153 (1)), the BusyWrite rule (R154), reset (R150), and whose turn it is (00_scope.md
R12). -/

namespace Sys2Proof.Machine

/-- The registers of R41's table. -/
inductive WinReg where
  | cmd | status | len | off | opa | opb | opm | res0 | res1 | bufcap | nbuckets
deriving DecidableEq, Repr

/-- R41: the window offset of a register. -/
def regOffset : WinReg → Nat
  | .cmd => 0x000
  | .status => 0x004
  | .len => 0x008
  | .off => 0x010
  | .opa => 0x018
  | .opb => 0x020
  | .opm => 0x028
  | .res0 => 0x030
  | .res1 => 0x038
  | .bufcap => 0x040
  | .nbuckets => 0x048

/-- R41: the one access size of a register. -/
def regSize : WinReg → Nat
  | .cmd => 4
  | .status => 4
  | _ => 8

/-- The rows of R41's table that name a register. -/
def windowRegs : List WinReg := [.cmd, .status, .len, .off, .opa, .opb, .opm, .res0, .res1, .bufcap, .nbuckets]

/-- What a legal host access reaches: a register, one BUF byte, or eight BUF bytes. -/
inductive Access where
  | reg (r : WinReg)
  | bufByte (i : Nat)
  | bufWord (i : Nat)
deriving DecidableEq, Repr

/-- R40: BUF[i] is at window offset 0x1000 + i. -/
def bufBase : Nat := 0x1000

/-- R41, R42: what the access (offset, size) reaches; `none` for a pair that is in no row of R41's table. -/
def accessOf (c : Config) (a size : Nat) : Option Access :=
  match windowRegs.find? (fun r => regOffset r == a && regSize r == size) with
  | some r => some (.reg r)
  | none =>
    if a < bufBase then none
    else if size = 1 ∧ a - bufBase < c.bufBytes then some (.bufByte (a - bufBase))
    else if size = 8 ∧ (a - bufBase) % 8 = 0 ∧ a - bufBase + 8 ≤ c.bufBytes then some (.bufWord (a - bufBase))
    else none

/-- R40: the window offset of a host bus address; an address below P_BASE is the platform's. -/
def busOffset (c : Config) (address : Nat) : Option Nat :=
  if c.base ≤ address then some (address - c.base) else none

/-- R25: STATUS.BUSY. -/
def State.busy (s : State) : Bool := statusBusy s.status

/-! ### Host reads -/

/-- R41: what a host read of a register returns. RES0 and RES1 read as a free value while BUSY = 1 (R155). -/
def readReg (s : State) : WinReg → Word
  | .cmd => 0
  | .status => s.status.setWidth 64
  | .len => s.len
  | .off => s.off
  | .opa => s.opa
  | .opb => s.opb
  | .opm => s.opm
  | .res0 => if s.busy then Config.freeWord s.draws else s.res0
  | .res1 => if s.busy then Config.freeWord s.draws else s.res1
  | .bufcap => wordOfNat s.cfg.bufBytes
  | .nbuckets => wordOfNat s.cfg.buckets

/-- R48 (b): what a host read of BUF[i] returns: the byte, or the free byte of draw `d` where it is unwritten. -/
def hostByte (s : State) (d i : Nat) : Byte := (s.buf.read i).getD (Config.freeByte d)

/-- R43: what a host read of BUF[i..i+8) returns, little-endian. -/
def hostWord (s : State) (i : Nat) : Word :=
  leWord [hostByte s s.draws i, hostByte s (s.draws + 1) (i + 1), hostByte s (s.draws + 2) (i + 2),
    hostByte s (s.draws + 3) (i + 3), hostByte s (s.draws + 4) (i + 4), hostByte s (s.draws + 5) (i + 5),
    hostByte s (s.draws + 6) (i + 6), hostByte s (s.draws + 7) (i + 7)]

/-- R41: what a legal host read returns, zero-extended. -/
def readAccess (s : State) : Access → Word
  | .reg r => readReg s r
  | .bufByte i => wordOfByte (hostByte s s.draws i)
  | .bufWord i => hostWord s i

/-- R49: a host read changes nothing of the block; the host gets the value, and the draws it may have used are
spent. -/
def State.deliver (s : State) (v : Word) : State := { s with got := v :: s.got, draws := s.draws + 8 }

/-- R41, R42: a host read. -/
def hostRead (s : State) (a size : Nat) : State :=
  match accessOf s.cfg a size with
  | none => s.recordFault .busError
  | some t => s.deliver (readAccess s t)

/-! ### Host writes -/

/-- R154: a write of CMD, an input register or BUF is performed while BUSY = 0; while BUSY = 1 it records BusyWrite and
is not performed. -/
def State.unlessBusy (s : State) (written : State) : State :=
  if s.busy then s.recordFault .busyWrite else written

/-- R153 (1): the issue of a command word. -/
def State.issue (s : State) (w : Word32) : State := { s with pending := some w, status := statusIssued }

/-- R41: store LEN. -/
def State.setLen (s : State) (v : Word) : State := { s with len := v }

/-- R41: store OFF. -/
def State.setOff (s : State) (v : Word) : State := { s with off := v }

/-- R41: store OPA. -/
def State.setOpa (s : State) (v : Word) : State := { s with opa := v }

/-- R41: store OPB. -/
def State.setOpb (s : State) (v : Word) : State := { s with opb := v }

/-- R41: store OPM. -/
def State.setOpm (s : State) (v : Word) : State := { s with opm := v }

/-- R41: store BUF. -/
def State.setBuf (s : State) (v : Memory) : State := { s with buf := v }

/-- R41: what a host write of a register does; a write of a read-only register is ignored. -/
def writeReg (s : State) (v : Word) : WinReg → State
  | .cmd => s.unlessBusy (s.issue (v.setWidth 32))
  | .len => s.unlessBusy (s.setLen v)
  | .off => s.unlessBusy (s.setOff v)
  | .opa => s.unlessBusy (s.setOpa v)
  | .opb => s.unlessBusy (s.setOpb v)
  | .opm => s.unlessBusy (s.setOpm v)
  | .status => s
  | .res0 => s
  | .res1 => s
  | .bufcap => s
  | .nbuckets => s

/-- R41, R43: what a legal host write does. -/
def writeAccess (s : State) (v : Word) : Access → State
  | .reg r => writeReg s v r
  | .bufByte i => s.unlessBusy (s.setBuf (s.buf.write i (byteOf v 0)))
  | .bufWord i => s.unlessBusy (s.setBuf (s.buf.writeBytes i (bytesOf v)))

/-- R41, R42: a host write. -/
def hostWrite (s : State) (a size : Nat) (v : Word) : State :=
  match accessOf s.cfg a size with
  | none => s.recordFault .busError
  | some t => writeAccess s v t

/-! ### Reset -/

/-- R150: reset. A pending command is abandoned, every BUF byte becomes unwritten, FAULTS and the configuration keep
their values. The host beside the block is not reset. -/
def State.blockReset (s : State) : State :=
  { State.powerOn s.cfg with faults := s.faults, turns := s.turns, got := s.got, draws := s.draws }

/-! ### Turns -/

/-- What one host statement does; `wait` is taken only once BUSY = 0, and is then its last read of STATUS (R65). -/
def hostStep (s : State) : HostStmt → State
  | .memRead a size => hostRead s a size
  | .memWrite a size v => hostWrite s a size v
  | .wait => hostRead s (regOffset .status) (regSize .status)
  | .reset => s.blockReset

/-- Who moves next, and the turns left after the move. -/
inductive Move where
  /-- The core completes the pending word. -/
  | core (w : Word32) (left : List Turn)
  /-- The host performs a statement. -/
  | host (stmt : HostStmt) (left : List Turn)
  /-- No agent that may move is enabled: the block is idle (60_exceptions.md R147). -/
  | idle (left : List Turn)
deriving DecidableEq, Repr

/-- A turn of the core: it is enabled exactly when a command is pending (R12, R153). -/
def coreMove (s : State) (left : List Turn) : Move :=
  match s.pending with
  | some w => .core w left
  | none => .idle left

/-- R12: the agent whose turn it is. When the turns have run out, a pending command completes (R157, weak fairness); so
does one the host waits for (R65: `wait` polls until BUSY = 0, and its polls change nothing). -/
def nextMove (s : State) : Move :=
  match s.turns with
  | [] => coreMove s []
  | .core :: left => coreMove s left
  | .host .wait :: left => if s.busy then coreMove s (.host .wait :: left) else .host .wait left
  | .host (.memRead a size) :: left => .host (.memRead a size) left
  | .host (.memWrite a size v) :: left => .host (.memWrite a size v) left
  | .host .reset :: left => .host .reset left

/-- Move past a turn. -/
def State.withTurns (s : State) (left : List Turn) : State := { s with turns := left }

/-- Put a command word where the core takes its next command from: PENDING, issued as by R153 (1), with the core's turn
first. -/
def State.placeCommand (s : State) (w : Word32) : State :=
  (s.issue w).withTurns (.core :: s.turns)

end Sys2Proof.Machine
end

