-- ==== Sys2Proof/Machine/HostProgram.lean ====
section
/-! DEFINITION. The host's notation (30_encoding.md R65, R66) and the payload duty of the bucketer (45_bucketer.md R130),
as lists of host statements. -/

namespace Sys2Proof.Machine

/-- R65 `wr REG, v`. -/
def hostWr (r : WinReg) (v : Word) : HostStmt := .memWrite (regOffset r) 8 v

/-- R65 `wrb i, b`. -/
def hostWrb (i : Nat) (b : Byte) : HostStmt := .memWrite (bufBase + i) 1 (b.setWidth 64)

/-- R65 `wrq i, v`. -/
def hostWrq (i : Nat) (v : Word) : HostStmt := .memWrite (bufBase + i) 8 v

/-- R65 `cmdw w`. -/
def hostCmdw (w : Word32) : HostStmt := .memWrite (regOffset .cmd) 4 (w.setWidth 64)

/-- R65 `cmd MNEMONIC`. -/
def hostCmd (i : Instr) : HostStmt := hostCmdw (encode i)

/-- R65 `rd REG`. -/
def hostRd (r : WinReg) : HostStmt := .memRead (regOffset r) (regSize r)

/-- R66 `wrbuf i, [b0, b1, ...]`. -/
def hostWrbuf : Nat → List Byte → List HostStmt
  | _, [] => []
  | i, b :: bs => hostWrb i b :: hostWrbuf (i + 1) bs

/-- R66 `run M`. -/
def hostRun (i : Instr) : List HostStmt := [hostCmd i, .wait]

/-- R66 `rotr v, s`. -/
def hostRotr (v s : Word) : List HostStmt := [hostWr .opa v, hostWr .opb s] ++ hostRun .rotr ++ [hostRd .res0]

/-- R66 `shiftmix v`. -/
def hostShiftmix (v : Word) : List HostStmt := [hostWr .opa v] ++ hostRun .shiftmix ++ [hostRd .res0]

/-- R66 `hashlen16 u, v, m`. -/
def hostHashlen16 (u v m : Word) : List HostStmt :=
  [hostWr .opa u, hostWr .opb v, hostWr .opm m] ++ hostRun .hashlen16 ++ [hostRd .res0]

/-- R66 `hash "s"`, on the bytes of the string. -/
def hostHash (bs : List Byte) : List HostStmt :=
  hostWrbuf 0 bs ++ [hostWr .len (wordOfNat bs.length)] ++ hostRun .hash64 ++ [hostRd .status, hostRd .res0]

/-- R130: the default P_SALT, the 15 bytes of "test:1" and "salt-2025". -/
def defaultSalt : List Byte :=
  [0x74, 0x65, 0x73, 0x74, 0x3A, 0x31, 0x73, 0x61, 0x6C, 0x74, 0x2D, 0x32, 0x30, 0x32, 0x35]

/-- R130: the payload of an identifier's bytes. -/
def payload (salt ident : List Byte) : List Byte := ident ++ salt

/-- R66 `bucket "id"`, on the bytes of the identifier. -/
def hostBucket (salt ident : List Byte) : List HostStmt :=
  hostWrbuf 0 (payload salt ident) ++ [hostWr .len (wordOfNat (payload salt ident).length)]
    ++ hostRun .hashbucket ++ [hostRd .status, hostRd .res0, hostRd .res1]

/-- A host program with no turn given to the core: a command completes where the host waits for it, or at the end. -/
def hostTurns (p : List HostStmt) : List Turn := p.map .host

end Sys2Proof.Machine
end

