-- ==== Sys2Proof/Machine/Step.lean ====
section
/-! DEFINITION. One step of the machine: the agent whose turn it is moves (00_scope.md R12, 70_reset_and_hazards.md
R153). -/

namespace Sys2Proof.Machine

/-- One step: the core's completion of a pending command, one host statement, or nothing where the block is idle. -/
def step (s : State) : Host.Outcome State Fault Refusal :=
  match nextMove s with
  | .core w left => coreStep w (s.withTurns left)
  | .host stmt left => .next (hostStep (s.withTurns left) stmt)
  | .idle left => .next (s.withTurns left)

/-- The command of an opcode-table word put where the next step takes its command from; a number of more than 32 bits is
no command word and leaves the state as it is. -/
def State.withFetchWord (s : State) (nbits w : Nat) : State :=
  match tableWord nbits w with
  | some c => s.placeCommand c
  | none => s

end Sys2Proof.Machine
end

