-- ==== Sys2Proof/Safety.lean ====
section
/-! DEFINITION. The terms claims are made in: the invariant of a reachable state, written input, the end of a run
(70_reset_and_hazards.md R158), which operands a command reads (30_encoding.md R61, R63), and two states that agree on
them. -/

namespace Sys2Proof.Machine

/-- What every state of a run from reset satisfies: STATUS is one of R25's legal words; BUSY = 1 exactly when PENDING is
not none (R32); BUF is in canonical form with every written index below P_BUF_BYTES (R31). -/
structure State.Inv (s : State) : Prop where
  statusLegal : statusLegal s.status = true
  busyPending : s.busy = s.pending.isSome
  bufWf : s.buf.wf
  bufWithin : s.buf.within s.cfg.bufBytes

/-- Every byte BUF[lo..hi) has been written since reset (R48). -/
def State.InputWritten (s : State) (lo hi : Nat) : Prop := ∀ a, lo ≤ a → a < hi → ∃ b, s.buf.read a = some b

/-- R34, R144: no fault is recorded. -/
def State.FaultFree (s : State) : Prop := ∀ f, s.faults.has f = false

/-- R158: the host has performed its last statement and PENDING = none. -/
def State.Ended (s : State) : Prop := (∀ stmt, Turn.host stmt ∉ s.turns) ∧ s.pending = none

/-- R158: a run that has ended is final if FAULTS is empty. -/
def State.Final (s : State) : Prop := s.Ended ∧ s.FaultFree

/-- R48: the commands whose input is BUF[0..LEN). -/
def hashesBuffer : Instr → Bool
  | .hash64 => true
  | .hashlen0to16 => true
  | .hashlen17to32 => true
  | .hashlen33to64 => true
  | .hashlong => true
  | .hashbucket => true
  | .rotr => false
  | .shiftmix => false
  | .hashlen16 => false
  | .hash128to64 => false
  | .weakhash32 => false
  | .bucket => false

/-- R141: the commands that can end with LEN_CAPACITY. -/
def checksCapacity (i : Instr) : Bool := hashesBuffer i || i == .weakhash32

/-- R29: the commands that write RES1. -/
def writesRes1 (i : Instr) : Bool := i == .weakhash32 || i == .hashbucket

/-- R141 LEN_BAND: the lengths a band command runs on; every length for a command that has no band. -/
def inBand : Instr → Nat → Bool
  | .hashlen0to16, n => n ≤ 16
  | .hashlen17to32, n => 17 ≤ n && n ≤ 32
  | .hashlen33to64, n => 33 ≤ n && n ≤ 64
  | .hashlong, n => 65 ≤ n
  | _, _ => true

/-- Every BUF byte that the command will read has been written: where its checks pass (R142), all of BUF[0..LEN), and for
WEAKHASH32 all of BUF[OFF..OFF+32) (R48). A command that its checks stop reads no byte. -/
def readsWrittenInput (i : Instr) (s : State) : Prop :=
  (hashesBuffer i = true → s.len.toNat ≤ s.cfg.bufBytes → inBand i s.len.toNat = true → s.InputWritten 0 s.len.toNat)
  ∧ (i = .weakhash32 → s.len.toNat ≤ s.cfg.bufBytes → s.off.toNat + 32 ≤ s.len.toNat →
      s.InputWritten s.off.toNat (s.off.toNat + 32))

/-- BUF holds the same in both states at every index from `lo` to below `hi`. -/
def sameBytes (s t : State) (lo hi : Nat) : Prop := ∀ a, lo ≤ a → a < hi → s.buf.read a = t.buf.read a

/-- R61's column "reads": the two states agree on what the command reads, and on the parameters (R14). -/
def sameOperands (i : Instr) (s t : State) : Prop :=
  s.cfg = t.cfg ∧
  match i with
  | .rotr => s.opa = t.opa ∧ s.opb = t.opb
  | .shiftmix => s.opa = t.opa
  | .hashlen16 => s.opa = t.opa ∧ s.opb = t.opb ∧ s.opm = t.opm
  | .hash128to64 => s.opa = t.opa ∧ s.opb = t.opb
  | .bucket => s.opa = t.opa
  | .weakhash32 => s.len = t.len ∧ s.off = t.off ∧ s.opa = t.opa ∧ s.opb = t.opb
      ∧ sameBytes s t s.off.toNat (s.off.toNat + 32)
  | .hash64 => s.len = t.len ∧ sameBytes s t 0 s.len.toNat
  | .hashlen0to16 => s.len = t.len ∧ sameBytes s t 0 s.len.toNat
  | .hashlen17to32 => s.len = t.len ∧ sameBytes s t 0 s.len.toNat
  | .hashlen33to64 => s.len = t.len ∧ sameBytes s t 0 s.len.toNat
  | .hashlong => s.len = t.len ∧ sameBytes s t 0 s.len.toNat
  | .hashbucket => s.len = t.len ∧ sameBytes s t 0 s.len.toNat

/-- R154: a host write of CMD, LEN, OFF, OPA, OPB, OPM or BUF, as opposed to a write of a read-only register. -/
def inputAccess : Access → Bool
  | .reg .cmd => true
  | .reg .len => true
  | .reg .off => true
  | .reg .opa => true
  | .reg .opb => true
  | .reg .opm => true
  | .reg .status => false
  | .reg .res0 => false
  | .reg .res1 => false
  | .reg .bufcap => false
  | .reg .nbuckets => false
  | .bufByte _ => true
  | .bufWord _ => true

/-- R41's table: the legal (offset, size) pairs. -/
def legalPair (c : Config) (a size : Nat) : Prop :=
  (a = 0x000 ∧ size = 4) ∨ (a = 0x004 ∧ size = 4) ∨ (a = 0x008 ∧ size = 8) ∨ (a = 0x010 ∧ size = 8)
    ∨ (a = 0x018 ∧ size = 8) ∨ (a = 0x020 ∧ size = 8) ∨ (a = 0x028 ∧ size = 8) ∨ (a = 0x030 ∧ size = 8)
    ∨ (a = 0x038 ∧ size = 8) ∨ (a = 0x040 ∧ size = 8) ∨ (a = 0x048 ∧ size = 8)
    ∨ (∃ i, i < c.bufBytes ∧ a = 0x1000 + i ∧ size = 1)
    ∨ (∃ i, i % 8 = 0 ∧ i + 8 ≤ c.bufBytes ∧ a = 0x1000 + i ∧ size = 8)

end Sys2Proof.Machine
end

