-- ==== Sys2Proof/Certificates/Slice0/Obligations.lean ====
section
/-! DEFINITION. The statements for the provers. STATUS words: 0x1 issued, 0x2 success, 0x106 ILLEGAL_CMD,
0x206 LEN_CAPACITY, 0x306 LEN_BAND, 0x406 OFF_RANGE (10_state.md R25, 60_exceptions.md R141). The fields `turns`, `got`
and `draws` are the model's own (log entries 3 to 5); no statement rests on a value of theirs or on a free value. -/

open Sys2Proof Sys2Proof.Machine

/-! ### Encoding -/

/-- 30_encoding.md section 2: each word of the opcode map, and four words that are illegal. -/
def Obligations.DecodesTheSpecWords : Prop :=
  decode 0x00000001#32 = .ok .rotr ∧ decode 0x00000002#32 = .ok .shiftmix ∧ decode 0x00000003#32 = .ok .hashlen16
  ∧ decode 0x00000004#32 = .ok .hash128to64 ∧ decode 0x00000010#32 = .ok .hash64
  ∧ decode 0x00000011#32 = .ok .hashlen0to16 ∧ decode 0x00000012#32 = .ok .hashlen17to32
  ∧ decode 0x00000013#32 = .ok .hashlen33to64 ∧ decode 0x00000014#32 = .ok .hashlong
  ∧ decode 0x00000020#32 = .ok .weakhash32 ∧ decode 0x00000030#32 = .ok .bucket
  ∧ decode 0x00000031#32 = .ok .hashbucket
  ∧ decode 0x00000000#32 = .error .unassignedOpcode ∧ decode 0x000000FF#32 = .error .unassignedOpcode
  ∧ decode 0x00000110#32 = .error .reservedNotZero ∧ decode 0x80000001#32 = .error .reservedNotZero

/-- 30_encoding.md sections 1 and 2: the decoder gives back the command of an encoded word, and of its bytes with
whatever follows them. -/
def Obligations.DecodeOfEncodeIsTheCommand : Prop :=
  ∀ i : Instr, i.wf = true → decode (encode i) = .ok i
    ∧ ∀ rest, decodeBytes (bytesOfWord (encode i) ++ rest) = .ok (i, rest)

/-- R64: every word decodes to one command or is illegal, exactly as R62 says; a row matches a word by mask and match,
and at most one does. -/
def Obligations.DecodingIsTotalAndExact : Prop :=
  ∀ w : Word32,
    ((∃ i, decode w = .ok i) ↔ commandWordWf w = true)
    ∧ ((∃ e, decode w = .error e) ↔ commandWordWf w = false)
    ∧ (∀ i, decode w = .ok i ↔ w &&& 0xFFFFFFFF#32 = encode i)
    ∧ (∀ i j, w &&& 0xFFFFFFFF#32 = encode i → w &&& 0xFFFFFFFF#32 = encode j → i = j)

/-! ### The step -/

/-- 70_reset_and_hazards.md sections 2 and 4: the step of the core, with what the model's turns add around it. The turns
are the model's choice (log entry 4), and so is placing a word with the core's turn next (log entry 6), here where no
other word is pending. -/
def Obligations.StepRunsTheDecodedCommand : Prop :=
  (∀ (s : State) (w : Word32) (i : Instr), s.pending = some w → decode w = .ok i →
    (s.turns = [] → step s = exec i s)
    ∧ (∀ left, s.turns = .core :: left → step s = exec i { s with turns := left })
    ∧ (∀ left, s.turns = .host .wait :: left → s.status.getLsbD 0 = true → step s = exec i s))
  ∧ ∀ (s : State) (i : Instr), s.pending = none → step (s.withFetchWord 32 (encode i).toNat)
      = exec i { s with pending := some (encode i), status := 0x1#32 }

/-- 30_encoding.md section 3, 60_exceptions.md section 1: an illegal word completes with ILLEGAL_CMD and has no other
effect. That a step completes it when the turns have run out, or when the core's turn is next, is the model's choice of
how to write down a schedule (log entry 4). -/
def Obligations.IllegalWordCompletesWithError : Prop :=
  ∀ (s : State) (w : Word32), commandWordWf w = false →
    coreStep w s = .next { s with pending := none, status := 0x106#32 }
    ∧ (s.pending = some w → s.turns = [] → step s = .next { s with pending := none, status := 0x106#32 })
    ∧ ∀ left, s.pending = some w → s.turns = .core :: left →
        step s = .next { s with turns := left, pending := none, status := 0x106#32 }

/-- 00_scope.md section 6, 20_memory.md section 5: a step on the host's turn performs its statement; where no agent is
enabled nothing of the block changes. -/
def Obligations.StepPerformsTheHostsTurn : Prop :=
  (∀ (s : State) (left : List Turn),
    (∀ a size, s.turns = .host (.memRead a size) :: left → step s = .next (hostRead { s with turns := left } a size))
    ∧ (∀ a size v, s.turns = .host (.memWrite a size v) :: left →
        step s = .next (hostWrite { s with turns := left } a size v))
    ∧ (s.turns = .host .wait :: left → s.status.getLsbD 0 = false →
        step s = .next (hostRead { s with turns := left } 0x004 4))
    ∧ (s.turns = .core :: left → s.pending = none → step s = .next { s with turns := left }))
  ∧ ∀ s : State, s.turns = [] → s.pending = none → step s = .next s

/-- R151: the state in which a run starts, for every legal configuration; `State.reset` is it for one of them. -/
def Obligations.RunStartsAtReset : Prop :=
  (∀ c : Config,
    (State.powerOn c).cfg = c ∧ (State.powerOn c).status = 0#32 ∧ (State.powerOn c).len = 0 ∧ (State.powerOn c).off = 0
    ∧ (State.powerOn c).opa = 0 ∧ (State.powerOn c).opb = 0 ∧ (State.powerOn c).opm = 0 ∧ (State.powerOn c).res0 = 0
    ∧ (State.powerOn c).res1 = 0 ∧ (State.powerOn c).pending = none ∧ (∀ a, (State.powerOn c).buf.read a = none)
    ∧ (State.powerOn c).FaultFree)
  ∧ ∃ c : Config, State.reset = State.powerOn c

/-- R150: what reset does from any state; KernelState is left out, since the rule leaves it unspecified. -/
def Obligations.ResetGivesTheResetValues : Prop :=
  ∀ (s : State) (left : List Turn), s.turns = .host .reset :: left →
    ∃ t, step s = .next t ∧ t.status = 0#32 ∧ t.len = 0 ∧ t.off = 0 ∧ t.opa = 0 ∧ t.opb = 0 ∧ t.opm = 0 ∧ t.res0 = 0
      ∧ t.res1 = 0 ∧ t.pending = none ∧ (∀ a, t.buf.read a = none) ∧ t.cfg = s.cfg ∧ t.faults = s.faults

/-! ### Invariants -/

/-- The invariant holds where a run starts, for every legal configuration. -/
def Obligations.InvariantHoldsAtReset : Prop := (∀ c : Config, (State.powerOn c).Inv) ∧ State.reset.Inv

/-- 10_state.md sections 3, 5 and 6: STATUS stays one of its legal words, BUSY = 1 exactly when PENDING is not none, BUF
keeps its canonical form and its bound. -/
def Obligations.StepKeepsTheInvariant : Prop := ∀ s t : State, s.Inv → step s = .next t → t.Inv

/-- 10_state.md section 6, 70_reset_and_hazards.md section 5: no step, a reset among them, removes a fault, and a state
with a fault is never final. -/
def Obligations.FaultsAreNeverRemoved : Prop :=
  (∀ (s t : State) (f : Fault), step s = .next t → s.faults.has f = true → t.faults.has f = true)
  ∧ ∀ (s : State) (f : Fault), s.faults.has f = true → ¬ s.Final

/-- R30: BUFCAP and NBUCKETS read the parameters, ignore writes, and never change. What BUFCAP reads at a capacity that
64 bits do not hold is log entry 8 and not stated. -/
def Obligations.ConfigurationReadsBack : Prop :=
  (∀ s : State,
    (s.cfg.bufBytes < 2 ^ 64 →
      ∃ r : Word, r.toNat = s.cfg.bufBytes
        ∧ hostRead s 0x040 8 = { s with got := r :: s.got, draws := s.draws + 8 })
    ∧ (∃ r : Word, r.toNat = s.cfg.buckets
        ∧ hostRead s 0x048 8 = { s with got := r :: s.got, draws := s.draws + 8 })
    ∧ ∀ v, hostWrite s 0x040 8 v = s ∧ hostWrite s 0x048 8 v = s)
  ∧ ∀ s t : State, step s = .next t → t.cfg = s.cfg

/-! ### Word functions and word commands -/

/-- R70: the rotator, by its formula and by its equivalent forms. -/
def Obligations.RotateRightMovesBits : Prop :=
  ∀ v k : Word,
    rotr v k = (if k.toNat % 64 = 0 then v else (v >>> (k.toNat % 64)) ||| (v <<< (64 - k.toNat % 64)))
    ∧ (∀ i, i < 64 → (rotr v k).getLsbD i = v.getLsbD ((i + k.toNat % 64) % 64))
    ∧ rotr v k = v.rotateLeft ((64 - k.toNat % 64) % 64)
    ∧ k.toNat % 64 = (k.extractLsb' 0 6).toNat
    ∧ ∀ z : Int, (((BitVec.ofInt 64 z).toNat % 64 : Nat) : Int) = z % 64

/-- R71: the shift-mix, by its formula and field by field. -/
def Obligations.ShiftMixFoldsTheTopBits : Prop :=
  ∀ v : Word,
    shiftMix v = v ^^^ (v >>> 47)
    ∧ (shiftMix v).extractLsb' 47 17 = v.extractLsb' 47 17
    ∧ (shiftMix v).extractLsb' 0 17 = v.extractLsb' 0 17 ^^^ v.extractLsb' 47 17
    ∧ (shiftMix v).extractLsb' 17 30 = v.extractLsb' 17 30

/-- R80, R81: the combiners' formulas; `hashLen16` is not symmetric. -/
def Obligations.CombinerFormulas : Prop :=
  (∀ u v mul : Word, hashLen16 u v mul =
    (let a := (u ^^^ v) * mul
     let a := a ^^^ (a >>> 47)
     let b := (v ^^^ a) * mul
     let b := b ^^^ (b >>> 47)
     b * mul))
  ∧ (∃ u v mul : Word, hashLen16 u v mul ≠ hashLen16 v u mul)
  ∧ ∀ u v : Word, hash128to64 u v = hashLen16 u v 0x9DDFEA08EB382D69#64

/-- R73: ROTR. -/
def Obligations.RotrCommand : Prop :=
  decode 0x00000001#32 = .ok .rotr
  ∧ (∀ s : State, exec .rotr s = .next { s with res0 := rotr s.opa s.opb, pending := none, status := 0x2#32 })
  ∧ (∀ a b : Word, b.toNat % 64 = 0 → rotr a b = a)
  ∧ (∀ a : Word, rotr a (BitVec.allOnes 64) = a.rotateLeft 1)
  ∧ (∀ b : Word, rotr 0 b = 0 ∧ rotr (BitVec.allOnes 64) b = BitVec.allOnes 64)
  ∧ (∀ a b : Word, rotr a b = rotr a (b &&& 63))
  ∧ rotr 0x0123456789ABCDEF#64 4 = 0xF0123456789ABCDE#64

/-- R74: SHIFTMIX. -/
def Obligations.ShiftmixCommand : Prop :=
  decode 0x00000002#32 = .ok .shiftmix
  ∧ (∀ s : State, exec .shiftmix s = .next { s with res0 := shiftMix s.opa, pending := none, status := 0x2#32 })
  ∧ (∀ a : Word, a.toNat < 2 ^ 47 → shiftMix a = a)
  ∧ shiftMix 0x8000000000000000#64 = 0x8000000000010000#64
  ∧ shiftMix (BitVec.allOnes 64) = 0xFFFFFFFFFFFE0000#64
  ∧ shiftMix 0x9AE16A3B2F90404F#64 = 0x9AE16A3B2F91758D#64

/-- R82: HASHLEN16. -/
def Obligations.Hashlen16Command : Prop :=
  decode 0x00000003#32 = .ok .hashlen16
  ∧ (∀ s : State, exec .hashlen16 s
      = .next { s with res0 := hashLen16 s.opa s.opb s.opm, pending := none, status := 0x2#32 })
  ∧ (∀ u v : Word, hashLen16 u v 0 = 0)
  ∧ (∀ m : Word, hashLen16 0 0 m = 0)
  ∧ (∀ u m : Word, hashLen16 u u m = shiftMix (u * m) * m)
  ∧ (∀ u v : Word, hashLen16 u v 1 = shiftMix (v ^^^ shiftMix (u ^^^ v)))
  ∧ hashLen16 1 0 0x9AE16A3B2F90404F#64 = 0x92A035DCFA240F16#64

/-- R83: HASH128TO64; its result is HASHLEN16's with OPM = KMUL, and OPM is not read. -/
def Obligations.Hash128to64Command : Prop :=
  decode 0x00000004#32 = .ok .hash128to64
  ∧ (∀ s : State, exec .hash128to64 s
      = .next { s with res0 := hash128to64 s.opa s.opb, pending := none, status := 0x2#32 })
  ∧ hash128to64 0 0 = 0
  ∧ (∀ s : State, ∃ t, exec .hashlen16 { s with opm := 0x9DDFEA08EB382D69#64 } = .next t
      ∧ exec .hash128to64 s = .next { t with opm := s.opm })
  ∧ hash128to64 1 0 = 0xB91445CE692F0CE5#64

/-! ### Reads of the buffer and the kernels -/

/-- R44, R45, R46: the core's reads are little-endian and zero-extended. -/
def Obligations.CoreReadsAreLittleEndian : Prop :=
  ∀ (i : Input) (o : Nat),
    (∀ b0, o < i.len → i.buf.read o = some b0 → read8 i o = .ok b0)
    ∧ (∀ b0 b1 b2 b3 : Byte, o + 4 ≤ i.len → i.buf.read o = some b0 → i.buf.read (o + 1) = some b1 →
        i.buf.read (o + 2) = some b2 → i.buf.read (o + 3) = some b3 →
        ∃ w, read32 i o = .ok w ∧ w = b0.setWidth 64 ||| (b1.setWidth 64 <<< 8) ||| (b2.setWidth 64 <<< 16)
          ||| (b3.setWidth 64 <<< 24) ∧ w.extractLsb' 32 32 = 0)
    ∧ (∀ b0 b1 b2 b3 b4 b5 b6 b7 : Byte, o + 8 ≤ i.len → i.buf.read o = some b0 → i.buf.read (o + 1) = some b1 →
        i.buf.read (o + 2) = some b2 → i.buf.read (o + 3) = some b3 → i.buf.read (o + 4) = some b4 →
        i.buf.read (o + 5) = some b5 → i.buf.read (o + 6) = some b6 → i.buf.read (o + 7) = some b7 →
        read64 i o = .ok (b0.setWidth 64 + (b1.setWidth 64 <<< 8) + (b2.setWidth 64 <<< 16) + (b3.setWidth 64 <<< 24)
          + (b4.setWidth 64 <<< 32) + (b5.setWidth 64 <<< 40) + (b6.setWidth 64 <<< 48) + (b7.setWidth 64 <<< 56)))

/-- R91, R92, R93, R94: the band [0,16]: its value from its reads, and that it reads every byte of BUF[0..n) and no
other. -/
def Obligations.Band0to16Kernel : Prop :=
  (∀ i : Input, i.len ≤ 16 →
    ((∀ a, a < i.len → ∃ b, i.buf.read a = some b) → ∃ v, hashLen0to16 i = .ok v)
    ∧ ((∃ a, a < i.len ∧ i.buf.read a = none) → hashLen0to16 i = .error .unwritten))
  ∧ (∀ (i : Input) (r0 b : Word), 8 ≤ i.len → i.len ≤ 16 → read64 i 0 = .ok r0 → read64 i (i.len - 8) = .ok b →
      hashLen0to16 i = .ok
        (let mul := 0x9AE16A3B2F90404F#64 + BitVec.ofNat 64 i.len * 2
         let a := r0 + 0x9AE16A3B2F90404F#64
         hashLen16 (rotr b 37 * mul + a) ((rotr a 25 + b) * mul) mul))
  ∧ (∀ (i : Input) (a b : Word), 4 ≤ i.len → i.len ≤ 7 → read32 i 0 = .ok a → read32 i (i.len - 4) = .ok b →
      hashLen0to16 i = .ok
        (hashLen16 (BitVec.ofNat 64 i.len + (a <<< 3)) b (0x9AE16A3B2F90404F#64 + BitVec.ofNat 64 i.len * 2)))
  ∧ (∀ (i : Input) (a b c : Byte), 1 ≤ i.len → i.len ≤ 3 → i.buf.read 0 = some a → i.buf.read (i.len / 2) = some b →
      i.buf.read (i.len - 1) = some c →
      hashLen0to16 i = .ok
        (let y := a.setWidth 64 + (b.setWidth 64 <<< 8)
         let z := BitVec.ofNat 64 i.len + (c.setWidth 64 <<< 2)
         shiftMix ((y * 0x9AE16A3B2F90404F#64) ^^^ (z * 0xC3A5C85C97CB3127#64)) * 0x9AE16A3B2F90404F#64))
  ∧ (∀ i : Input, i.len = 0 → hashLen0to16 i = .ok 0x9AE16A3B2F90404F#64)

/-- R95: the band [17,32]. -/
def Obligations.Band17to32Kernel : Prop :=
  ∀ i : Input, 17 ≤ i.len → i.len ≤ 32 →
    ((∀ a, a < i.len → ∃ b, i.buf.read a = some b) → ∃ v, hashLen17to32 i = .ok v)
    ∧ ((∃ a, a < i.len ∧ i.buf.read a = none) → hashLen17to32 i = .error .unwritten)
    ∧ ∀ r0 b rc rd : Word, read64 i 0 = .ok r0 → read64 i 8 = .ok b → read64 i (i.len - 8) = .ok rc →
        read64 i (i.len - 16) = .ok rd →
        hashLen17to32 i = .ok
          (let mul := 0x9AE16A3B2F90404F#64 + BitVec.ofNat 64 i.len * 2
           let a := r0 * 0xB492B66FBE98F273#64
           let c := rc * mul
           let d := rd * 0x9AE16A3B2F90404F#64
           hashLen16 (rotr (a + b) 43 + rotr c 30 + d) (a + rotr (b + 0x9AE16A3B2F90404F#64) 18 + c) mul)

/-- R96: the band [33,64], for either value of A33_MUL. -/
def Obligations.Band33to64Kernel : Prop :=
  a33Word .k1 = 0xB492B66FBE98F273#64 ∧ a33Word .k2 = 0x9AE16A3B2F90404F#64
  ∧ ∀ (m : A33Mul) (i : Input), 33 ≤ i.len → i.len ≤ 64 →
    ((∀ a, a < i.len → ∃ b, i.buf.read a = some b) → ∃ v, hashLen33to64 m i = .ok v)
    ∧ ((∃ a, a < i.len ∧ i.buf.read a = none) → hashLen33to64 m i = .error .unwritten)
    ∧ ∀ r0 b rc rd re f rg rh : Word, read64 i 0 = .ok r0 → read64 i 8 = .ok b → read64 i (i.len - 8) = .ok rc →
        read64 i (i.len - 16) = .ok rd → read64 i 16 = .ok re → read64 i 24 = .ok f →
        read64 i (i.len - 32) = .ok rg → read64 i (i.len - 24) = .ok rh →
        hashLen33to64 m i = .ok
          (let mul := 0x9AE16A3B2F90404F#64 + BitVec.ofNat 64 i.len * 2
           let a := r0 * a33Word m
           let c := rc * mul
           let d := rd * 0x9AE16A3B2F90404F#64
           let y := rotr (a + b) 43 + rotr c 30 + d
           let z := hashLen16 y (a + rotr (b + 0x9AE16A3B2F90404F#64) 18 + c) mul
           let e := re * mul
           let g := (y + rg) * mul
           let h := (z + rh) * mul
           hashLen16 (rotr (e + f) 43 + rotr g 30 + h) (e + rotr (f + a) 18 + g) mul)

/-- R90: the dispatch on length; the hash of the empty input is K2. -/
def Obligations.DispatchOnLength : Prop :=
  ∀ (m : A33Mul) (i : Input),
    (i.len ≤ 16 → topHash m i = shortHash (hashLen0to16 i))
    ∧ (17 ≤ i.len → i.len ≤ 32 → topHash m i = shortHash (hashLen17to32 i))
    ∧ (33 ≤ i.len → i.len ≤ 64 → topHash m i = shortHash (hashLen33to64 m i))
    ∧ (64 < i.len → topHash m i = hashLong i)
    ∧ (i.len = 0 → ∃ h, topHash m i = .ok h ∧ h.value = 0x9AE16A3B2F90404F#64)
    ∧ (∀ r v, r = .ok v → ∃ h, shortHash r = .ok h ∧ h.value = v ∧ h.kernel = none)

/-- R110, R111: the block mixer in its word form and over the buffer. -/
def Obligations.WeakHashKernel : Prop :=
  (∀ w x y z a b : Word, weakHash32Words w x y z a b =
    (let a1 := a + w
     let b1 := rotr (b + a1 + z) 21
     let a2 := a1 + x + y
     let b2 := b1 + rotr a2 44
     (a2 + z, b2 + a1)))
  ∧ ∀ (i : Input) (o : Nat) (a b : Word), o + 32 ≤ i.len →
      ((∀ c, o ≤ c → c < o + 32 → ∃ v, i.buf.read c = some v) → ∃ p, weakHash32 i o a b = .ok p)
      ∧ ((∃ c, o ≤ c ∧ c < o + 32 ∧ i.buf.read c = none) → weakHash32 i o a b = .error .unwritten)
      ∧ ∀ w x y z : Word, read64 i o = .ok w → read64 i (o + 8) = .ok x → read64 i (o + 16) = .ok y →
          read64 i (o + 24) = .ok z → weakHash32 i o a b = .ok (weakHash32Words w x y z a b)

/-- R120: KernelState before any stride, with the constants the rule evaluates. -/
def Obligations.LongKernelInitialState : Prop :=
  (∀ r : Word, kernelInit r =
    { x := 0x01529CBA0CA458FF#64 + r, y := 0x226BB95B4E64B6D4#64, z := 0x134A747F856D0526#64,
      v0 := 0, v1 := 0, w0 := 0, w1 := 0 })
  ∧ (81 : Word) * 0x9AE16A3B2F90404F#64 = 0x01529CBA0CA458FF#64
  ∧ (81 : Word) * 0xB492B66FBE98F273#64 + 113 = 0x226BB95B4E64B6D4#64
  ∧ shiftMix (0x226BB95B4E64B6D4#64 * 0x9AE16A3B2F90404F#64 + 113) * 0x9AE16A3B2F90404F#64 = 0x134A747F856D0526#64

/-- R122: the stride update, from the eight words of its block, in the loop form and in the tail form; it reads
BUF[o..o+64) and no other byte. -/
def Obligations.StrideUpdate : Prop :=
  ∀ (i : Input) (o : Nat) (m : Word) (t : Bool) (k : KernelState), o + 64 ≤ i.len →
    ((∀ c, o ≤ c → c < o + 64 → ∃ v, i.buf.read c = some v) → ∃ k', stride i o m t k = .ok k')
    ∧ ((∃ c, o ≤ c ∧ c < o + 64 ∧ i.buf.read c = none) → stride i o m t k = .error .unwritten)
    ∧ ∀ q0 q1 q2 q3 q4 q5 q6 q7 : Word, read64 i o = .ok q0 → read64 i (o + 8) = .ok q1 → read64 i (o + 16) = .ok q2 →
        read64 i (o + 24) = .ok q3 → read64 i (o + 32) = .ok q4 → read64 i (o + 40) = .ok q5 →
        read64 i (o + 48) = .ok q6 → read64 i (o + 56) = .ok q7 →
        stride i o m t k = .ok
          (let x := rotr (k.x + k.y + k.v0 + q1) 37 * m
           let y := rotr (k.y + k.v1 + q6) 42 * m
           let x := if t then x ^^^ (k.w1 * 9) else x ^^^ k.w1
           let y := if t then y + k.v0 * 9 + q5 else y + k.v0 + q5
           let z := rotr (k.z + k.w0) 33 * m
           let v := weakHash32Words q0 q1 q2 q3 (k.v1 * m) (x + k.w0)
           let w := weakHash32Words q4 q5 q6 q7 (z + k.w1) (y + q2)
           { x := z, y := y, z := x, v0 := v.1, v1 := v.2, w0 := w.1, w1 := w.2 })

/-- R123: the tail preparation; the tail multiplier is K1 plus an even number of at most 510, and odd. -/
def Obligations.TailPreparation : Prop :=
  ∀ (n : Nat) (k : KernelState), 65 ≤ n →
    tailMul k = 0xB492B66FBE98F273#64 + ((k.z &&& 0xFF) <<< 1)
    ∧ (tailMul k).toNat = 0xB492B66FBE98F273 + 2 * (k.z.toNat % 256)
    ∧ (tailMul k).toNat ≤ 0xB492B66FBE98F273 + 510
    ∧ (tailMul k).toNat % 2 = 1
    ∧ tailPrepare n k =
        { k with
          v0 := k.v0 + (k.w0 + BitVec.ofNat 64 ((n - 1) % 64))
          w0 := k.w0 + BitVec.ofNat 64 ((n - 1) % 64) + (k.v0 + (k.w0 + BitVec.ofNat 64 ((n - 1) % 64))) }

/-- R121, R124, R125, R126: the long-input kernel in its order: the first word, one loop stride for each offset 0, 64, up
to ((n - 1) div 64) * 64 - 64 with multiplier K1, the preparation, the tail pass at n - 64, the final combine; it reads
every byte of BUF[0..n) and no other. -/
def Obligations.LongKernelRuns : Prop :=
  (∀ i : Input, 65 ≤ i.len →
    ((∀ a, a < i.len → ∃ b, i.buf.read a = some b) → ∃ h, hashLong i = .ok h)
    ∧ ((∃ a, a < i.len ∧ i.buf.read a = none) → hashLong i = .error .unwritten))
  ∧ (∀ n, 65 ≤ n → 1 ≤ strideCount n ∧ 64 * strideCount n ≤ n - 1 ∧ n - 64 ≤ 64 * strideCount n
      ∧ (n % 64 = 0 → 64 * strideCount n = n - 64))
  ∧ (∀ (i : Input) (first : Word) (ks : List KernelState) (k k' : KernelState), 65 ≤ i.len →
      read64 i 0 = .ok first → ks.length = (i.len - 1) / 64 + 1 → ks[0]? = some (kernelInit first) →
      (∀ (j : Nat) (a b : KernelState), ks[j]? = some a → ks[j + 1]? = some b →
        stride i (64 * j) 0xB492B66FBE98F273#64 false a = .ok b) →
      ks.getLast? = some k → stride i (i.len - 64) (tailMul k) true (tailPrepare i.len k) = .ok k' →
      ∃ h, hashLong i = .ok h ∧ h.kernel = some k'
        ∧ h.value = hashLen16 (hashLen16 k'.v0 k'.w0 (tailMul k) + shiftMix k'.y * 0xC3A5C85C97CB3127#64 + k'.z)
            (hashLen16 k'.v1 k'.w1 (tailMul k) + k'.x) (tailMul k))

/-! ### Buffer commands -/

/-- R97: HASH64. -/
def Obligations.Hash64Command : Prop :=
  decode 0x00000010#32 = .ok .hash64
  ∧ (∀ s : State, s.len.toNat > s.cfg.bufBytes →
      exec .hash64 s = .next { s with pending := none, status := 0x206#32 })
  ∧ (∀ s : State, s.len.toNat ≤ s.cfg.bufBytes → s.InputWritten 0 s.len.toNat →
      ∃ h, topHash s.cfg.a33 { buf := s.buf, len := s.len.toNat } = .ok h
        ∧ exec .hash64 s = .next { s with
            res0 := h.value, kernel := h.kernel.getD s.kernel, pending := none, status := 0x2#32 })
  ∧ (∀ s : State, s.len.toNat ≤ s.cfg.bufBytes → ¬ s.InputWritten 0 s.len.toNat →
      ∃ t, exec .hash64 s = .next t ∧ t = { s with
        res0 := t.res0, kernel := t.kernel, draws := t.draws, pending := none, status := 0x2#32,
        faults := s.faults.record .unwrittenRead })
  ∧ (∀ s : State, s.len = 0 →
      exec .hash64 s = .next { s with res0 := 0x9AE16A3B2F90404F#64, pending := none, status := 0x2#32 })
  ∧ (∀ s : State, s.len.toNat ≤ s.cfg.bufBytes → readsWrittenInput .hash64 s →
      (s.len.toNat ≤ 16 → exec .hash64 s = exec .hashlen0to16 s)
      ∧ (17 ≤ s.len.toNat → s.len.toNat ≤ 32 → exec .hash64 s = exec .hashlen17to32 s)
      ∧ (33 ≤ s.len.toNat → s.len.toNat ≤ 64 → exec .hash64 s = exec .hashlen33to64 s)
      ∧ (65 ≤ s.len.toNat → exec .hash64 s = exec .hashlong s))
  ∧ (∀ (s t : State) (b : Memory), (∀ a, a < s.len.toNat → b.read a = s.buf.read a) →
      readsWrittenInput .hash64 s → exec .hash64 s = .next t → exec .hash64 { s with buf := b } = .next { t with buf := b })
  ∧ (∀ s : State, s.len = 3 → 3 ≤ s.cfg.bufBytes → s.buf.read 0 = some 0x61 → s.buf.read 1 = some 0x62 →
      s.buf.read 2 = some 0x63 →
      exec .hash64 s = .next { s with res0 := 0x24A5B3A074E7F369#64, pending := none, status := 0x2#32 })

/-- R98: HASHLEN0TO16. -/
def Obligations.Hashlen0to16Command : Prop :=
  decode 0x00000011#32 = .ok .hashlen0to16
  ∧ (∀ s : State, s.len.toNat > s.cfg.bufBytes →
      exec .hashlen0to16 s = .next { s with pending := none, status := 0x206#32 })
  ∧ (∀ s : State, s.len.toNat ≤ s.cfg.bufBytes → 16 < s.len.toNat →
      exec .hashlen0to16 s = .next { s with pending := none, status := 0x306#32 })
  ∧ (∀ s : State, s.len.toNat ≤ s.cfg.bufBytes → s.len.toNat ≤ 16 → s.InputWritten 0 s.len.toNat →
      ∃ v, hashLen0to16 { buf := s.buf, len := s.len.toNat } = .ok v
        ∧ exec .hashlen0to16 s = .next { s with res0 := v, pending := none, status := 0x2#32 })
  ∧ (∀ s : State, s.len.toNat ≤ s.cfg.bufBytes → s.len.toNat ≤ 16 → ¬ s.InputWritten 0 s.len.toNat →
      ∃ t, exec .hashlen0to16 s = .next t ∧ t = { s with
        res0 := t.res0, draws := t.draws, pending := none, status := 0x2#32,
        faults := s.faults.record .unwrittenRead })
  ∧ (∀ s : State, s.len.toNat ≤ 16 → readsWrittenInput .hashlen0to16 s →
      exec .hashlen0to16 s = exec .hash64 s)
  ∧ (∀ s : State, s.len = 0 →
      exec .hashlen0to16 s = .next { s with res0 := 0x9AE16A3B2F90404F#64, pending := none, status := 0x2#32 })

/-- R99: HASHLEN17TO32. -/
def Obligations.Hashlen17to32Command : Prop :=
  decode 0x00000012#32 = .ok .hashlen17to32
  ∧ (∀ s : State, s.len.toNat > s.cfg.bufBytes →
      exec .hashlen17to32 s = .next { s with pending := none, status := 0x206#32 })
  ∧ (∀ s : State, s.len.toNat ≤ s.cfg.bufBytes → s.len.toNat < 17 ∨ 32 < s.len.toNat →
      exec .hashlen17to32 s = .next { s with pending := none, status := 0x306#32 })
  ∧ (∀ s : State, s.len.toNat ≤ s.cfg.bufBytes → 17 ≤ s.len.toNat → s.len.toNat ≤ 32 →
      s.InputWritten 0 s.len.toNat →
      ∃ v, hashLen17to32 { buf := s.buf, len := s.len.toNat } = .ok v
        ∧ exec .hashlen17to32 s = .next { s with res0 := v, pending := none, status := 0x2#32 })
  ∧ (∀ s : State, s.len.toNat ≤ s.cfg.bufBytes → 17 ≤ s.len.toNat → s.len.toNat ≤ 32 →
      ¬ s.InputWritten 0 s.len.toNat →
      ∃ t, exec .hashlen17to32 s = .next t ∧ t = { s with
        res0 := t.res0, draws := t.draws, pending := none, status := 0x2#32,
        faults := s.faults.record .unwrittenRead })
  ∧ (∀ s : State, 17 ≤ s.len.toNat → s.len.toNat ≤ 32 → readsWrittenInput .hashlen17to32 s →
      exec .hashlen17to32 s = exec .hash64 s)
  ∧ (∀ s : State, s.len = 17 → 17 ≤ s.cfg.bufBytes → (∀ a, a < 17 → s.buf.read a = some (BitVec.ofNat 8 a)) →
      exec .hashlen17to32 s = .next { s with res0 := 0xBBB6A6F8F20D1F1C#64, pending := none, status := 0x2#32 })

/-- R100: HASHLEN33TO64. -/
def Obligations.Hashlen33to64Command : Prop :=
  decode 0x00000013#32 = .ok .hashlen33to64
  ∧ (∀ s : State, s.len.toNat > s.cfg.bufBytes →
      exec .hashlen33to64 s = .next { s with pending := none, status := 0x206#32 })
  ∧ (∀ s : State, s.len.toNat ≤ s.cfg.bufBytes → s.len.toNat < 33 ∨ 64 < s.len.toNat →
      exec .hashlen33to64 s = .next { s with pending := none, status := 0x306#32 })
  ∧ (∀ s : State, s.len.toNat ≤ s.cfg.bufBytes → 33 ≤ s.len.toNat → s.len.toNat ≤ 64 →
      s.InputWritten 0 s.len.toNat →
      ∃ v, hashLen33to64 s.cfg.a33 { buf := s.buf, len := s.len.toNat } = .ok v
        ∧ exec .hashlen33to64 s = .next { s with res0 := v, pending := none, status := 0x2#32 })
  ∧ (∀ s : State, s.len.toNat ≤ s.cfg.bufBytes → 33 ≤ s.len.toNat → s.len.toNat ≤ 64 →
      ¬ s.InputWritten 0 s.len.toNat →
      ∃ t, exec .hashlen33to64 s = .next t ∧ t = { s with
        res0 := t.res0, draws := t.draws, pending := none, status := 0x2#32,
        faults := s.faults.record .unwrittenRead })
  ∧ (∀ s : State, 33 ≤ s.len.toNat → s.len.toNat ≤ 64 → readsWrittenInput .hashlen33to64 s →
      exec .hashlen33to64 s = exec .hash64 s)
  ∧ (∀ s : State, s.len = 33 → 33 ≤ s.cfg.bufBytes → (∀ a, a < 33 → s.buf.read a = some (BitVec.ofNat 8 a)) →
      exec .hashlen33to64 s = .next { s with
        res0 := (match s.cfg.a33 with
          | .k1 => 0x4AE0646E131EC9AC#64
          | .k2 => 0xE8756EC1CB75524E#64)
        pending := none, status := 0x2#32 })

/-- R127: HASHLONG. -/
def Obligations.HashlongCommand : Prop :=
  decode 0x00000014#32 = .ok .hashlong
  ∧ (∀ s : State, s.len.toNat > s.cfg.bufBytes →
      exec .hashlong s = .next { s with pending := none, status := 0x206#32 })
  ∧ (∀ s : State, s.len.toNat ≤ s.cfg.bufBytes → s.len.toNat < 65 →
      exec .hashlong s = .next { s with pending := none, status := 0x306#32 })
  ∧ (∀ s : State, s.len.toNat ≤ s.cfg.bufBytes → 65 ≤ s.len.toNat → s.InputWritten 0 s.len.toNat →
      ∃ h, hashLong { buf := s.buf, len := s.len.toNat } = .ok h
        ∧ exec .hashlong s = .next { s with
            res0 := h.value, kernel := h.kernel.getD s.kernel, pending := none, status := 0x2#32 })
  ∧ (∀ s : State, s.len.toNat ≤ s.cfg.bufBytes → 65 ≤ s.len.toNat → ¬ s.InputWritten 0 s.len.toNat →
      ∃ t, exec .hashlong s = .next t ∧ t = { s with
        res0 := t.res0, kernel := t.kernel, draws := t.draws, pending := none, status := 0x2#32,
        faults := s.faults.record .unwrittenRead })
  ∧ (∀ s : State, 65 ≤ s.len.toNat → readsWrittenInput .hashlong s → exec .hashlong s = exec .hash64 s)
  ∧ strideCount 65 = 1 ∧ strideCount 128 = 1 ∧ strideCount 129 = 2
  ∧ (∀ s : State, s.len = 65 → 65 ≤ s.cfg.bufBytes → (∀ a, a < 65 → s.buf.read a = some (BitVec.ofNat 8 a)) →
      ∃ t, exec .hashlong s = .next t
        ∧ t = { s with res0 := 0xC6A3282C3E793DBE#64, kernel := t.kernel, pending := none, status := 0x2#32 })

/-- R112: WEAKHASH32. -/
def Obligations.Weakhash32Command : Prop :=
  decode 0x00000020#32 = .ok .weakhash32
  ∧ (∀ s : State, s.len.toNat > s.cfg.bufBytes →
      exec .weakhash32 s = .next { s with pending := none, status := 0x206#32 })
  ∧ (∀ s : State, s.len.toNat ≤ s.cfg.bufBytes → s.off.toNat + 32 > s.len.toNat →
      exec .weakhash32 s = .next { s with pending := none, status := 0x406#32 })
  ∧ (∀ s : State, s.len.toNat ≤ s.cfg.bufBytes → s.off.toNat + 32 ≤ s.len.toNat →
      s.InputWritten s.off.toNat (s.off.toNat + 32) →
      ∃ p, weakHash32 { buf := s.buf, len := s.len.toNat } s.off.toNat s.opa s.opb = .ok p
        ∧ exec .weakhash32 s = .next { s with res0 := p.1, res1 := p.2, pending := none, status := 0x2#32 })
  ∧ (∀ s : State, s.len.toNat ≤ s.cfg.bufBytes → s.off.toNat + 32 ≤ s.len.toNat →
      ¬ s.InputWritten s.off.toNat (s.off.toNat + 32) →
      ∃ t, exec .weakhash32 s = .next t ∧ t = { s with
        res0 := t.res0, res1 := t.res1, draws := t.draws, pending := none, status := 0x2#32,
        faults := s.faults.record .unwrittenRead })
  ∧ weakHash32Words 0 0 0 0 0 0 = (0, 0)
  ∧ (∀ w x y z a b : Word, (weakHash32Words w x y z a b).1 = a + w + x + y + z)
  ∧ (∀ s : State, s.len = 64 → 64 ≤ s.cfg.bufBytes → s.off = 0 → s.opa = 0 → s.opb = 0 →
      (∀ a, a < 64 → s.buf.read a = some (BitVec.ofNat 8 a)) →
      exec .weakhash32 s = .next { s with
        res0 := 0x4C4844403C383430#64, res1 := 0x5A18D816D595D492#64, pending := none, status := 0x2#32 })

/-! ### The bucket reducer -/

/-- R131: the absolute value, with its signed minimum. -/
def Obligations.AbsoluteValue : Prop :=
  ∀ h : Word,
    absVal h = h.toInt.natAbs
    ∧ (h.toNat < 2 ^ 63 → absVal h = h.toNat)
    ∧ (2 ^ 63 ≤ h.toNat → absVal h = 2 ^ 64 - h.toNat)
    ∧ absVal h ≤ 2 ^ 63
    ∧ (2 ^ 63 ≤ absVal h ↔ h = 0x8000000000000000#64)

/-- R132: the remainder, its range, and that the signed and the unsigned remainder agree. -/
def Obligations.BucketOfAHash : Prop :=
  ∀ (c : Config) (h : Word),
    bucketOf c h = absVal h % c.buckets
    ∧ bucketOf c h < c.buckets
    ∧ ((bucketOf c h : Nat) : Int) = Int.tmod (absVal h : Int) (c.buckets : Int)
    ∧ (c.buckets = 100 → bucketOf c h ≤ 99 ∧ (absVal h = 2 ^ 63 → bucketOf c h = 8))

/-- R134: BUCKET. -/
def Obligations.BucketCommand : Prop :=
  decode 0x00000030#32 = .ok .bucket
  ∧ (∀ s : State, exec .bucket s
      = .next { s with res0 := BitVec.ofNat 64 (bucketOf s.cfg s.opa), pending := none, status := 0x2#32 })
  ∧ (∀ (c : Config) (h : Word), (BitVec.ofNat 64 (bucketOf c h)).toNat < c.buckets)
  ∧ ∀ c : Config, c.buckets = 100 →
      bucketOf c 0 = 0 ∧ bucketOf c 0x8000000000000000#64 = 8 ∧ bucketOf c 0x7FFFFFFFFFFFFFFF#64 = 7
      ∧ bucketOf c 0x8000000000000001#64 = 7 ∧ bucketOf c 0xFFFFFFFFFFFFFFFF#64 = 1 ∧ bucketOf c 100#64 = 0
      ∧ bucketOf c 0xFFFFFFFFFFFFFF9C#64 = 0 ∧ bucketOf c 0x9AE16A3B2F90404F#64 = 53

/-- R135: HASHBUCKET. -/
def Obligations.HashbucketCommand : Prop :=
  decode 0x00000031#32 = .ok .hashbucket
  ∧ (∀ s : State, s.len.toNat > s.cfg.bufBytes →
      exec .hashbucket s = .next { s with pending := none, status := 0x206#32 })
  ∧ (∀ s : State, s.len.toNat ≤ s.cfg.bufBytes → s.InputWritten 0 s.len.toNat →
      ∃ h, topHash s.cfg.a33 { buf := s.buf, len := s.len.toNat } = .ok h
        ∧ bucketHash s.cfg { buf := s.buf, len := s.len.toNat } = .ok (bucketOf s.cfg h.value)
        ∧ exec .hashbucket s = .next { s with
            res0 := BitVec.ofNat 64 (bucketOf s.cfg h.value), res1 := h.value, kernel := h.kernel.getD s.kernel,
            pending := none, status := 0x2#32 })
  ∧ (∀ s : State, s.len.toNat ≤ s.cfg.bufBytes → ¬ s.InputWritten 0 s.len.toNat →
      ∃ t, exec .hashbucket s = .next t ∧ t = { s with
        res0 := t.res0, res1 := t.res1, kernel := t.kernel, draws := t.draws, pending := none, status := 0x2#32,
        faults := s.faults.record .unwrittenRead })
  ∧ (∀ s t : State, s.len.toNat ≤ s.cfg.bufBytes → s.InputWritten 0 s.len.toNat → exec .hashbucket s = .next t →
      ∃ u v, exec .hash64 s = .next u ∧ t.res1 = u.res0 ∧ exec .bucket { s with opa := t.res1 } = .next v
        ∧ t.res0 = v.res0)
  ∧ (∀ s : State, s.len = 0 → s.cfg.buckets = 100 → exec .hashbucket s = .next { s with
      res0 := 53, res1 := 0x9AE16A3B2F90404F#64, pending := none, status := 0x2#32 })
  ∧ (∀ n, 33 ≤ n → n ≤ 64 → ∃ i : Input, i.len = n ∧ topHash .k1 i ≠ topHash .k2 i)
  ∧ (∀ s : State, s.len = 21 → 21 ≤ s.cfg.bufBytes → s.cfg.buckets = 100 →
      (∀ a, a < 21 → s.buf.read a
        = (payload defaultSalt [0x61, 0x62, 0x63, 0x31, 0x32, 0x33])[a]?) →
      exec .hashbucket s = .next { s with
        res0 := 96, res1 := 0xF83D270C38F56B98#64, pending := none, status := 0x2#32 })

/-- 45_bucketer.md section 4 (range): every bucket a command writes is below P_BUCKETS; of a HASHBUCKET whose input was
not all written the spec gives no result. -/
def Obligations.BucketResultsAreBelowTheModulus : Prop :=
  ∀ s t : State,
    (exec .bucket s = .next t → t.res0.toNat < s.cfg.buckets)
    ∧ (exec .hashbucket s = .next t → t.status = 0x2#32 → s.InputWritten 0 s.len.toNat →
        t.res0.toNat < s.cfg.buckets)

/-! ### All commands -/

/-- 60_exceptions.md section 1, 20_memory.md section 3: every command completes from every state, in success or in one
error; none is refused for a read outside BUF[0..LEN), and no step of the machine stops. -/
def Obligations.EveryCommandCompletes : Prop :=
  (∀ (i : Instr) (s : State), ∃ t, exec i s = .next t ∧ t.pending = none
    ∧ (t.status = 0x2#32 ∨ t.status = 0x206#32 ∨ t.status = 0x306#32 ∨ t.status = 0x406#32))
  ∧ ∀ s : State, ∃ t, step s = .next t

/-- 20_memory.md section 3 (what the core writes), 10_state.md section 4: the frame of every command. The operand
registers, BUF byte by byte and the parameters keep their values; RES1 changes in WEAKHASH32 and HASHBUCKET only;
KernelState in HASH64, HASHLONG and HASHBUCKET only; FAULTS gains UnwrittenRead at most. -/
def Obligations.CommandFrame : Prop :=
  ∀ (i : Instr) (s t : State), exec i s = .next t →
    t = { s with
      res0 := t.res0, res1 := t.res1, kernel := t.kernel, status := t.status, pending := none, faults := t.faults,
      draws := t.draws }
    ∧ (∀ a, t.buf.read a = s.buf.read a)
    ∧ (i ≠ .weakhash32 → i ≠ .hashbucket → t.res1 = s.res1)
    ∧ (i ≠ .hash64 → i ≠ .hashlong → i ≠ .hashbucket → t.kernel = s.kernel)
    ∧ (s.len.toNat ≤ 64 → t.kernel = s.kernel)
    ∧ (t.faults = s.faults ∨ t.faults = s.faults.record .unwrittenRead)

/-- R143: the effect of an error, the next CMD write after it, and that commands do not nest. -/
def Obligations.ErrorEffect : Prop :=
  (∀ (w : Word32) (s t : State), coreStep w s = .next t → t.status.getLsbD 2 = true →
    ∃ c : Byte, (c = 1 ∨ c = 2 ∨ c = 3 ∨ c = 4) ∧ t.status.getLsbD 0 = false ∧ t.status.getLsbD 1 = true
      ∧ t.status.extractLsb' 8 8 = c ∧ t = { s with pending := none, status := t.status })
  ∧ (∀ (s : State) (v : Word), s.status.getLsbD 0 = false →
      hostWrite s 0x000 4 v = { s with pending := some (v.setWidth 32), status := 0x1#32 })
  ∧ (∀ (s : State) (v : Word), s.status.getLsbD 0 = true →
      hostWrite s 0x000 4 v = { s with faults := s.faults.record .busyWrite })

/-- R141, R142: which error a command word ends with, by its cause, in the order of the checks; an error reads no BUF
byte. -/
def Obligations.ErrorCodesAndPriority : Prop :=
  ∀ (w : Word32) (s t : State), coreStep w s = .next t →
    (t.status = 0x106#32 ↔ commandWordWf w = false)
    ∧ (∀ i, decode w = .ok i →
        (t.status = 0x206#32 ↔ checksCapacity i = true ∧ s.len.toNat > s.cfg.bufBytes)
        ∧ (t.status = 0x306#32 ↔ inBand i s.len.toNat = false ∧ s.len.toNat ≤ s.cfg.bufBytes)
        ∧ (t.status = 0x406#32 ↔ i = .weakhash32 ∧ s.off.toNat + 32 > s.len.toNat ∧ s.len.toNat ≤ s.cfg.bufBytes))
    ∧ (t.status = 0x2#32 ∨ t.status = 0x106#32 ∨ t.status = 0x206#32 ∨ t.status = 0x306#32 ∨ t.status = 0x406#32)
    ∧ (t.status ≠ 0x2#32 → t.faults = s.faults
        ∧ ∀ b : Memory, coreStep w { s with buf := b } = .next { t with buf := b })

/-- R14: a command's status and results depend on the operands its rule reads and on the parameters, and on nothing
else; where its input was not all written the spec gives no result to compare. -/
def Obligations.ResultsDependOnOperandsOnly : Prop :=
  ∀ (i : Instr) (s t s' t' : State), sameOperands i s t → exec i s = .next s' → exec i t = .next t' →
    s'.status = t'.status
    ∧ (s.faults.unwrittenRead = false → t.faults.unwrittenRead = false →
        s'.faults.unwrittenRead = t'.faults.unwrittenRead)
    ∧ (s'.status = 0x2#32 → s'.faults.unwrittenRead = false →
        s'.res0 = t'.res0 ∧ (writesRes1 i = true → s'.res1 = t'.res1))

/-- R48: a byte is unwritten after reset and written by a host write; a host read leaves it unwritten; a hashing command
records UnwrittenRead exactly when a byte of BUF[0..LEN) is unwritten, WEAKHASH32 exactly when one of BUF[OFF..OFF+32)
is. -/
def Obligations.UnwrittenBytes : Prop :=
  (∀ (c : Config) (a : Nat), (State.powerOn c).buf.read a = none)
  ∧ (∀ (s : State) (left : List Turn), s.turns = .host .reset :: left →
      ∃ t, step s = .next t ∧ ∀ a, t.buf.read a = none)
  ∧ (∀ (s : State) (k : Nat) (v : Word), k < s.cfg.bufBytes → s.status.getLsbD 0 = false →
      (hostWrite s (0x1000 + k) 1 v).buf.read k = some (v.setWidth 8))
  ∧ (∀ (s : State) (a size : Nat), (hostRead s a size).buf = s.buf)
  ∧ (∀ (s : State) (k : Nat), k < s.cfg.bufBytes → s.buf.read k = none →
      ∃ b : Byte, hostRead s (0x1000 + k) 1 = { s with got := b.setWidth 64 :: s.got, draws := s.draws + 8 })
  ∧ (∀ (s : State) (k : Nat), k % 8 = 0 → k + 8 ≤ s.cfg.bufBytes →
      (∀ (v : Word) (j : Nat), s.status.getLsbD 0 = false → j < 8 →
        (hostWrite s (0x1000 + k) 8 v).buf.read (k + j) = some (v.extractLsb' (8 * j) 8))
      ∧ ∃ r : Word, hostRead s (0x1000 + k) 8 = { s with got := r :: s.got, draws := s.draws + 8 }
        ∧ ∀ (j : Nat) (b : Byte), j < 8 → s.buf.read (k + j) = some b → r.extractLsb' (8 * j) 8 = b)
  ∧ (∀ (i : Instr) (s t : State), hashesBuffer i = true → s.len.toNat ≤ s.cfg.bufBytes →
      inBand i s.len.toNat = true → s.faults.unwrittenRead = false → exec i s = .next t →
      (t.faults.unwrittenRead = true ↔ ∃ a, a < s.len.toNat ∧ s.buf.read a = none))
  ∧ (∀ s t : State, s.len.toNat ≤ s.cfg.bufBytes → s.off.toNat + 32 ≤ s.len.toNat →
      s.faults.unwrittenRead = false → exec .weakhash32 s = .next t →
      (t.faults.unwrittenRead = true ↔
        ∃ a, s.off.toNat ≤ a ∧ a < s.off.toNat + 32 ∧ s.buf.read a = none))

/-! ### The host window -/

/-- R42: the legal accesses are those of R41's table; every other one records BusError and has no other effect. -/
def Obligations.OnlyTableAccessesAreLegal : Prop :=
  (∀ (c : Config) (a size : Nat), (∃ x, accessOf c a size = some x) ↔ legalPair c a size)
  ∧ ∀ (s : State) (a size : Nat), ¬ legalPair s.cfg a size →
      hostRead s a size = { s with faults := s.faults.record .busError }
      ∧ ∀ v, hostWrite s a size v = { s with faults := s.faults.record .busError }

/-- R154: while BUSY = 1 a write of an input records BusyWrite and is not performed, a write of a read-only register is
ignored, and every legal read is allowed. -/
def Obligations.WritesWhileBusy : Prop :=
  ∀ (s : State) (a size : Nat) (v : Word) (x : Access), accessOf s.cfg a size = some x →
    s.status.getLsbD 0 = true →
    (inputAccess x = true → hostWrite s a size v = { s with faults := s.faults.record .busyWrite })
    ∧ (inputAccess x = false → hostWrite s a size v = s)
    ∧ ∃ r, hostRead s a size = { s with got := r :: s.got, draws := s.draws + 8 }

/-- R43: the window is little-endian: an 8-byte write of BUF, byte by byte, with its frame, and an 8-byte read. -/
def Obligations.WindowIsLittleEndian : Prop :=
  ∀ (s : State) (k : Nat), k % 8 = 0 → k + 8 ≤ s.cfg.bufBytes →
    (∀ v : Word, s.status.getLsbD 0 = false →
      ∃ m, hostWrite s (0x1000 + k) 8 v = { s with buf := m }
        ∧ (∀ j, j < 8 → m.read (k + j) = some (v.extractLsb' (8 * j) 8))
        ∧ ∀ a, a < k ∨ k + 8 ≤ a → m.read a = s.buf.read a)
    ∧ ∀ b0 b1 b2 b3 b4 b5 b6 b7 : Byte, s.buf.read k = some b0 → s.buf.read (k + 1) = some b1 →
        s.buf.read (k + 2) = some b2 → s.buf.read (k + 3) = some b3 → s.buf.read (k + 4) = some b4 →
        s.buf.read (k + 5) = some b5 → s.buf.read (k + 6) = some b6 → s.buf.read (k + 7) = some b7 →
        hostRead s (0x1000 + k) 8 = { s with
          got := (b0.setWidth 64 + (b1.setWidth 64 <<< 8) + (b2.setWidth 64 <<< 16) + (b3.setWidth 64 <<< 24)
            + (b4.setWidth 64 <<< 32) + (b5.setWidth 64 <<< 40) + (b6.setWidth 64 <<< 48) + (b7.setWidth 64 <<< 56))
            :: s.got
          draws := s.draws + 8 }

/-- 20_memory.md section 1: one-byte accesses of BUF. -/
def Obligations.ByteAccessesOfBuf : Prop :=
  ∀ (s : State) (k : Nat), k < s.cfg.bufBytes →
    (∀ v : Word, s.status.getLsbD 0 = false →
      ∃ m, hostWrite s (0x1000 + k) 1 v = { s with buf := m } ∧ m.read k = some (v.setWidth 8)
        ∧ ∀ a, a ≠ k → m.read a = s.buf.read a)
    ∧ ∀ b : Byte, s.buf.read k = some b →
        hostRead s (0x1000 + k) 1 = { s with got := b.setWidth 64 :: s.got, draws := s.draws + 8 }

/-- R24: CMD reads 0, issues a command while BUSY = 0, faults while BUSY = 1, and holds no value of its own. -/
def Obligations.CmdRegister : Prop :=
  ∀ s : State,
    hostRead s 0x000 4 = { s with got := 0 :: s.got, draws := s.draws + 8 }
    ∧ ∀ v : Word,
      (s.status.getLsbD 0 = false →
        hostWrite s 0x000 4 v = { s with pending := some (v.setWidth 32), status := 0x1#32 })
      ∧ (s.status.getLsbD 0 = true → hostWrite s 0x000 4 v = { s with faults := s.faults.record .busyWrite })

/-- 10_state.md section 4: the operand registers hold what the host writes and read back. -/
def Obligations.OperandRegistersHoldWhatIsWritten : Prop :=
  ∀ s : State,
    (∀ v : Word, s.status.getLsbD 0 = false →
      hostWrite s 0x008 8 v = { s with len := v } ∧ hostWrite s 0x010 8 v = { s with off := v }
      ∧ hostWrite s 0x018 8 v = { s with opa := v } ∧ hostWrite s 0x020 8 v = { s with opb := v }
      ∧ hostWrite s 0x028 8 v = { s with opm := v })
    ∧ hostRead s 0x008 8 = { s with got := s.len :: s.got, draws := s.draws + 8 }
    ∧ hostRead s 0x010 8 = { s with got := s.off :: s.got, draws := s.draws + 8 }
    ∧ hostRead s 0x018 8 = { s with got := s.opa :: s.got, draws := s.draws + 8 }
    ∧ hostRead s 0x020 8 = { s with got := s.opb :: s.got, draws := s.draws + 8 }
    ∧ hostRead s 0x028 8 = { s with got := s.opm :: s.got, draws := s.draws + 8 }

/-- R27: OFF holds what the host writes and resets to 0; the core never writes it, and no command but WEAKHASH32 reads
it: another OFF gives the same next state, or, where an unwritten byte is read, the same but for the unspecified
results. -/
def Obligations.OffsetRegister : Prop :=
  (∀ (s : State) (v : Word), s.status.getLsbD 0 = false → hostWrite s 0x010 8 v = { s with off := v })
  ∧ (∀ s : State, hostRead s 0x010 8 = { s with got := s.off :: s.got, draws := s.draws + 8 })
  ∧ (∀ (i : Instr) (s t : State), exec i s = .next t → t.off = s.off)
  ∧ (∀ (i : Instr) (s t : State) (v : Word), i ≠ .weakhash32 → readsWrittenInput i s → exec i s = .next t →
      exec i { s with off := v } = .next { t with off := v })
  ∧ (∀ (i : Instr) (s t : State) (v : Word), i ≠ .weakhash32 → exec i s = .next t →
      ∃ u, exec i { s with off := v } = .next u ∧ u = { t with
        off := v, res0 := u.res0, res1 := u.res1, kernel := u.kernel, draws := u.draws })
  ∧ (∀ c : Config, (State.powerOn c).off = 0) ∧ ∀ s : State, s.blockReset.off = 0

/-- 10_state.md sections 3 and 4, 70_reset_and_hazards.md section 3: STATUS, RES0 and RES1 ignore writes; STATUS reads
exactly at any time; RES0 and RES1 read exactly while BUSY = 0. -/
def Obligations.StatusAndResultsReadOnly : Prop :=
  ∀ s : State,
    (∀ v, hostWrite s 0x004 4 v = s ∧ hostWrite s 0x030 8 v = s ∧ hostWrite s 0x038 8 v = s)
    ∧ hostRead s 0x004 4 = { s with got := s.status.setWidth 64 :: s.got, draws := s.draws + 8 }
    ∧ (s.status.getLsbD 0 = false →
        hostRead s 0x030 8 = { s with got := s.res0 :: s.got, draws := s.draws + 8 }
        ∧ hostRead s 0x038 8 = { s with got := s.res1 :: s.got, draws := s.draws + 8 })

/-- 20_memory.md section 4: from issue to completion no step but a reset changes what the command will read. -/
def Obligations.InputsAreFixedWhileBusy : Prop :=
  ∀ s t : State, step s = .next t → s.status.getLsbD 0 = true → (∀ left, s.turns ≠ .host .reset :: left) →
    t.len = s.len ∧ t.off = s.off ∧ t.opa = s.opa ∧ t.opb = s.opb ∧ t.opm = s.opm ∧ t.buf = s.buf ∧ t.cfg = s.cfg
    ∧ (t.pending = s.pending ∨ t.pending = none)

/-- 30_encoding.md section 5, 20_memory.md section 4: `wait` ends, with a STATUS read of BUSY = 0. -/
def Obligations.WaitEndsWithBusyClear : Prop :=
  ∀ (s : State) (left : List Turn), s.Inv → s.turns = .host .wait :: left → s.status.getLsbD 0 = true →
    ∃ t u st, step s = .next t ∧ t.pending = none ∧ t.turns = s.turns ∧ step t = .next u ∧ u.turns = left
      ∧ u.got = st :: s.got ∧ st = u.status.setWidth 64 ∧ st.getLsbD 0 = false

/-- 70_reset_and_hazards.md section 4 (weak fairness), derived: under every schedule a pending command leaves PENDING, by
completion or by a reset, once the turns given to the host have passed. -/
def Obligations.PendingCommandCompletes : Prop :=
  ∀ (s : State) (w : Word32), s.Inv → s.pending = some w →
    ∃ k, k ≤ s.turns.length + 1 ∧ ∃ t, Sys2Proof.core.run k s = .next t ∧ t.pending = none

/-- 60_exceptions.md section 1 (R141): the five word commands have no error cause and always succeed, from every state,
each with its result in RES0; RES1, KernelState and FAULTS keep their values. -/
def Obligations.WordCommandsAlwaysSucceed : Prop :=
  ∀ s : State,
    exec .rotr s = .next { s with res0 := rotr s.opa s.opb, pending := none, status := 0x2#32 }
    ∧ exec .shiftmix s = .next { s with res0 := s.opa ^^^ (s.opa >>> 47), pending := none, status := 0x2#32 }
    ∧ exec .hashlen16 s = .next { s with res0 := hashLen16 s.opa s.opb s.opm, pending := none, status := 0x2#32 }
    ∧ exec .hash128to64 s = .next { s with
        res0 := hashLen16 s.opa s.opb 0x9DDFEA08EB382D69#64, pending := none, status := 0x2#32 }
    ∧ exec .bucket s = .next { s with
        res0 := BitVec.ofNat 64 (absVal s.opa % s.cfg.buckets), pending := none, status := 0x2#32 }
end

