-- ==== Sys2Proof/Laws/Flags.lean ====
section
/-! SUPPORT. The STATUS words of 10_state.md R25 and 60_exceptions.md R141 as numbers, and their fields. -/

namespace Sys2Proof.Machine

@[simp] theorem statusIssued_eq : statusIssued = 0x1#32 := by decide
@[simp] theorem statusSuccess_eq : statusSuccess = 0x2#32 := by decide
@[simp] theorem statusError_illegalCmd : statusError .illegalCmd = 0x106#32 := by decide
@[simp] theorem statusError_lenCapacity : statusError .lenCapacity = 0x206#32 := by decide
@[simp] theorem statusError_lenBand : statusError .lenBand = 0x306#32 := by decide
@[simp] theorem statusError_offRange : statusError .offRange = 0x406#32 := by decide

/-- The fields of the STATUS word of an error. -/
theorem statusError_fields (c : ErrCode) :
    statusBusy (statusError c) = false ∧ statusDone (statusError c) = true ∧ statusErr (statusError c) = true
      ∧ statusErrCode (statusError c) = errCodeValue c ∧ statusLegal (statusError c) = true := by
  cases c <;> decide

theorem statusSuccess_legal : statusLegal statusSuccess = true ∧ statusBusy statusSuccess = false := by decide

theorem statusIssued_legal : statusLegal statusIssued = true ∧ statusBusy statusIssued = true := by decide

theorem statusError_ne_success (c : ErrCode) : statusError c ≠ statusSuccess := by cases c <;> decide

end Sys2Proof.Machine
end

