-- ==== Sys2Proof/Laws/Reads.lean ====
section
/-! SUPPORT. What a computation that reads BUF can do, said once and composed: `ReadsExactly r P` says that `r` answers a
value where `P` holds and stops on an unwritten byte where it does not, and so never reads out of bounds. -/

namespace Sys2Proof.Machine

/-- `r` gives a value exactly where `P` holds, and otherwise meets an unwritten byte. -/
structure ReadsExactly {α : Type} (r : Except ReadFail α) (P : Prop) : Prop where
  ok : P → ∃ v, r = .ok v
  unwritten : ¬P → r = .error .unwritten

/-- `n` bytes from index `o` on are written. -/
def Memory.Written (m : Memory) (o n : Nat) : Prop := ∀ a, o ≤ a → a < o + n → (Memory.read m a).isSome = true

theorem Memory.Written.split {m : Memory} {o n : Nat} (k : Nat) (h : k ≤ n) :
    m.Written o n ↔ m.Written o k ∧ m.Written (o + k) (n - k) := by
  constructor
  · intro w
    exact ⟨fun a h1 h2 => w a h1 (by omega), fun a h1 h2 => w a (by omega) (by omega)⟩
  · rintro ⟨w1, w2⟩ a h1 h2
    by_cases ha : a < o + k
    · exact w1 a h1 ha
    · exact w2 a (by omega) (by omega)

theorem ReadsExactly.pure {α : Type} (v : α) : ReadsExactly (.ok v) True :=
  ⟨fun _ => ⟨v, rfl⟩, fun h => absurd trivial h⟩

theorem ReadsExactly.iff {α : Type} {r : Except ReadFail α} {P Q : Prop} (h : ReadsExactly r P) (e : P ↔ Q) :
    ReadsExactly r Q := ⟨fun q => h.ok (e.2 q), fun q => h.unwritten (fun p => q (e.1 p))⟩

theorem ReadsExactly.bind {α β : Type} {r : Except ReadFail α} {f : α → Except ReadFail β} {P Q : Prop}
    (h : ReadsExactly r P) (g : ∀ v, ReadsExactly (f v) Q) : ReadsExactly (r >>= f) (P ∧ Q) := by
  constructor
  · rintro ⟨p, q⟩
    obtain ⟨v, rfl⟩ := h.ok p
    exact (g v).ok q
  · intro n
    by_cases p : P
    · obtain ⟨v, rfl⟩ := h.ok p
      exact (g v).unwritten (fun q => n ⟨p, q⟩)
    · rw [h.unwritten p]; rfl

theorem ReadsExactly.map {α β : Type} {r : Except ReadFail α} {P : Prop} (h : ReadsExactly r P) (f : α → β) :
    ReadsExactly (r >>= fun v => .ok (f v)) P :=
  (h.bind (fun v => ReadsExactly.pure (f v))).iff (by simp)

theorem ReadsExactly.not_outOfBounds {α : Type} {r : Except ReadFail α} {P : Prop} (h : ReadsExactly r P) :
    r ≠ .error .outOfBounds := by
  intro e
  by_cases p : P
  · obtain ⟨v, hv⟩ := h.ok p
    rw [hv] at e; cases e
  · rw [h.unwritten p] at e; cases e

theorem readByte_reads (b : Input) (o : Nat) : ReadsExactly (readByte b o) (b.buf.Written o 1) := by
  unfold readByte
  constructor
  · intro w
    obtain ⟨v, hv⟩ := Option.isSome_iff_exists.1 (w o le_rfl (by omega))
    exact ⟨v, by simp [hv]⟩
  · intro n
    cases hv : b.buf.read o with
    | none => rfl
    | some v =>
      refine absurd (fun a h1 h2 => ?_) n
      obtain rfl : a = o := by omega
      simp [hv]

theorem readBytes_reads (b : Input) (o k : Nat) : ReadsExactly (readBytes b o k) (b.buf.Written o k) := by
  induction k generalizing o with
  | zero => exact (ReadsExactly.pure _).iff ⟨fun _ a h1 h2 => absurd h2 (by omega), fun _ => trivial⟩
  | succ k ih =>
    refine ((readByte_reads b o).bind fun v => (ih (o + 1)).map (v :: ·)).iff ?_
    rw [Memory.Written.split (n := k + 1) 1 (by omega)]
    simp

theorem read8_reads {b : Input} {o : Nat} (h : o < b.len) : ReadsExactly (read8 b o) (b.buf.Written o 1) := by
  unfold read8; rw [if_pos h]; exact readByte_reads b o

theorem read32_reads {b : Input} {o : Nat} (h : o + 4 ≤ b.len) : ReadsExactly (read32 b o) (b.buf.Written o 4) := by
  unfold read32; rw [if_pos h]; exact (readBytes_reads b o 4).map leWord

theorem read64_reads {b : Input} {o : Nat} (h : o + 8 ≤ b.len) : ReadsExactly (read64 b o) (b.buf.Written o 8) := by
  unfold read64; rw [if_pos h]; exact (readBytes_reads b o 8).map leWord

/-! ### Two buffers that hold the same bytes where a read looks give the same read. -/

theorem readBytes_congr {b c : Input} {o k : Nat} (h : ∀ a, o ≤ a → a < o + k → b.buf.read a = c.buf.read a) :
    readBytes b o k = readBytes c o k := by
  induction k generalizing o with
  | zero => rfl
  | succ k ih =>
    have e1 : readByte b o = readByte c o := by unfold readByte; rw [h o le_rfl (by omega)]
    have e2 := ih (o := o + 1) (fun a h1 h2 => h a (by omega) (by omega))
    simp only [readBytes, e1, e2]

theorem read8_congr {b c : Input} {o : Nat} (hl : b.len = c.len) (h : o < b.len → b.buf.read o = c.buf.read o) :
    read8 b o = read8 c o := by
  unfold read8
  rw [hl] at h ⊢
  split_ifs with h1
  · unfold readByte; rw [h h1]
  · rfl

theorem read32_congr {b c : Input} {o : Nat} (hl : b.len = c.len)
    (h : ∀ a, o ≤ a → a < o + 4 → o + 4 ≤ b.len → b.buf.read a = c.buf.read a) : read32 b o = read32 c o := by
  unfold read32
  rw [hl] at h ⊢
  split_ifs with h1
  · rw [readBytes_congr (fun a h2 h3 => h a h2 h3 h1)]
  · rfl

theorem read64_congr {b c : Input} {o : Nat} (hl : b.len = c.len)
    (h : ∀ a, o ≤ a → a < o + 8 → o + 8 ≤ b.len → b.buf.read a = c.buf.read a) : read64 b o = read64 c o := by
  unfold read64
  rw [hl] at h ⊢
  split_ifs with h1
  · rw [readBytes_congr (fun a h2 h3 => h a h2 h3 h1)]
  · rfl

end Sys2Proof.Machine
end

