-- ==== Sys2Proof/Laws/Kernels.lean ====
section
/-! SUPPORT. Which bytes each kernel reads: all of BUF[0..n) and none outside it (20_memory.md R47, R48), and that two
inputs with the same bytes below their length hash alike. -/

namespace Sys2Proof.Machine

theorem weakHash32_reads {i : Input} {o : Nat} (a b : Word) (h : o + 32 ≤ i.len) :
    ReadsExactly (weakHash32 i o a b) (i.buf.Written o 32) := by
  refine ((read64_reads (by omega)).bind fun w => (read64_reads (by omega)).bind fun x =>
    (read64_reads (by omega)).bind fun y => (read64_reads (by omega)).map _).iff ?_
  rw [Memory.Written.split (o := o) (n := 32) 8 (by omega), Memory.Written.split (o := o + 8) (n := 24) 8 (by omega),
    Memory.Written.split (o := o + 8 + 8) (n := 16) 8 (by omega)]

theorem stride_reads {i : Input} {o : Nat} (m : Word) (t : Bool) (k : KernelState) (h : o + 64 ≤ i.len) :
    ReadsExactly (stride i o m t k) (i.buf.Written o 64) := by
  refine ((read64_reads (by omega)).bind fun r8 => (read64_reads (by omega)).bind fun r48 =>
    (read64_reads (by omega)).bind fun r40 => (weakHash32_reads _ _ (by omega)).bind fun v =>
    (read64_reads (by omega)).bind fun r16 => (weakHash32_reads _ _ (by omega)).map _).iff ?_
  constructor
  · rintro ⟨-, -, -, hv, -, hw⟩
    exact (Memory.Written.split 32 (by omega)).2 ⟨hv, hw⟩
  · intro w
    refine ⟨?_, ?_, ?_, ?_, ?_, ?_⟩ <;> exact fun a h1 h2 => w a (by omega) (by omega)

theorem strides_reads {i : Input} (count o : Nat) (k : KernelState) (h : o + 64 * count ≤ i.len) :
    ReadsExactly (strides i count o k) (i.buf.Written o (64 * count)) := by
  induction count generalizing o k with
  | zero => exact (ReadsExactly.pure _).iff ⟨fun _ a h1 h2 => absurd h2 (by omega), fun _ => trivial⟩
  | succ count ih =>
    refine ((stride_reads K1 false k (by omega)).bind fun k' => ih (o + 64) k' (by omega)).iff ?_
    rw [Memory.Written.split (n := 64 * (count + 1)) 64 (by omega)]
    have e : 64 * (count + 1) - 64 = 64 * count := by omega
    rw [e]

theorem hashLong_reads {i : Input} (h : 65 ≤ i.len) : ReadsExactly (hashLong i) (i.buf.Written 0 i.len) := by
  have hc : 64 * strideCount i.len ≤ i.len - 1 := by unfold strideCount; omega
  have hc' : i.len - 64 ≤ 64 * strideCount i.len := by unfold strideCount; omega
  refine ((read64_reads (by omega)).bind fun first => (strides_reads _ 0 _ (by omega)).bind fun k =>
    (stride_reads _ _ _ (by omega)).map _).iff ?_
  constructor
  · rintro ⟨-, hl, ht⟩ a h1 h2
    by_cases ha : a < 0 + 64 * strideCount i.len
    · exact hl a h1 ha
    · exact ht a (by omega) (by omega)
  · intro w
    refine ⟨?_, ?_, ?_⟩ <;> exact fun a h1 h2 => w a (by omega) (by omega)

theorem hashLen0to16_reads {i : Input} (h : i.len ≤ 16) :
    ReadsExactly (hashLen0to16 i) (i.buf.Written 0 i.len) := by
  unfold hashLen0to16
  split_ifs with h8 h4 h1
  · refine ((read64_reads (by omega)).bind fun r => (read64_reads (by omega)).map _).iff ?_
    constructor
    · rintro ⟨h1, h2⟩ a h3 h4
      by_cases ha : a < 8
      · exact h1 a h3 (by omega)
      · exact h2 a (by omega) (by omega)
    · intro w
      refine ⟨?_, ?_⟩ <;> exact fun a h1 h2 => w a (by omega) (by omega)
  · refine ((read32_reads (by omega)).bind fun r => (read32_reads (by omega)).map _).iff ?_
    constructor
    · rintro ⟨h1, h2⟩ a h3 h4
      by_cases ha : a < 4
      · exact h1 a h3 (by omega)
      · exact h2 a (by omega) (by omega)
    · intro w
      refine ⟨?_, ?_⟩ <;> exact fun a h1 h2 => w a (by omega) (by omega)
  · refine ((read8_reads (by omega)).bind fun r => (read8_reads (by omega)).bind fun r =>
      (read8_reads (by omega)).map _).iff ?_
    constructor
    · rintro ⟨h1, h2, h3⟩ a h5 h6
      by_cases ha : a < 1
      · exact h1 a (by omega) (by omega)
      · by_cases hb : a = i.len - 1
        · exact h3 a (by omega) (by omega)
        · exact h2 a (by omega) (by omega)
    · intro w
      refine ⟨?_, ?_, ?_⟩ <;> exact fun a h1 h2 => w a (by omega) (by omega)
  · exact (ReadsExactly.pure _).iff ⟨fun _ a h1 h2 => absurd h2 (by omega), fun _ => trivial⟩

theorem hashLen17to32_reads {i : Input} (h : 17 ≤ i.len) (h' : i.len ≤ 32) :
    ReadsExactly (hashLen17to32 i) (i.buf.Written 0 i.len) := by
  refine ((read64_reads (by omega)).bind fun r => (read64_reads (by omega)).bind fun r =>
    (read64_reads (by omega)).bind fun r => (read64_reads (by omega)).map _).iff ?_
  constructor
  · rintro ⟨h1, h2, h3, h4⟩ a h5 h6
    by_cases ha : a < 8
    · exact h1 a (by omega) (by omega)
    · by_cases hb : a < 16
      · exact h2 a (by omega) (by omega)
      · by_cases hc : a < i.len - 8
        · exact h4 a (by omega) (by omega)
        · exact h3 a (by omega) (by omega)
  · intro w
    refine ⟨?_, ?_, ?_, ?_⟩ <;> exact fun a h1 h2 => w a (by omega) (by omega)

theorem hashLen33to64_reads {i : Input} (m : A33Mul) (h : 33 ≤ i.len) (h' : i.len ≤ 64) :
    ReadsExactly (hashLen33to64 m i) (i.buf.Written 0 i.len) := by
  refine ((read64_reads (by omega)).bind fun r => (read64_reads (by omega)).bind fun r =>
    (read64_reads (by omega)).bind fun r => (read64_reads (by omega)).bind fun r =>
    (read64_reads (by omega)).bind fun r => (read64_reads (by omega)).bind fun r =>
    (read64_reads (by omega)).bind fun r => (read64_reads (by omega)).map _).iff ?_
  constructor
  · rintro ⟨w0, w8, wn8, wn16, w16, w24, wn32, wn24⟩ a h5 h6
    by_cases a1 : a < 8
    · exact w0 a (by omega) (by omega)
    by_cases a2 : a < 16
    · exact w8 a (by omega) (by omega)
    by_cases a3 : a < 24
    · exact w16 a (by omega) (by omega)
    by_cases a4 : a < 32
    · exact w24 a (by omega) (by omega)
    by_cases a5 : a < i.len - 24
    · exact wn32 a (by omega) (by omega)
    by_cases a6 : a < i.len - 16
    · exact wn24 a (by omega) (by omega)
    by_cases a7 : a < i.len - 8
    · exact wn16 a (by omega) (by omega)
    · exact wn8 a (by omega) (by omega)
  · intro w
    refine ⟨?_, ?_, ?_, ?_, ?_, ?_, ?_, ?_⟩ <;> exact fun a h1 h2 => w a (by omega) (by omega)

theorem shortHash_reads {r : Except ReadFail Word} {P : Prop} (h : ReadsExactly r P) :
    ReadsExactly (shortHash r) P := h.map _

/-- R48: the hash reads every byte of BUF[0..n), and R47: none outside it. -/
theorem hash_reads (m : A33Mul) (i : Input) : ReadsExactly (topHash m i) (i.buf.Written 0 i.len) := by
  unfold topHash
  split_ifs with h1 h2 h3
  · exact shortHash_reads (hashLen0to16_reads h1)
  · exact shortHash_reads (hashLen17to32_reads (by omega) h2)
  · exact shortHash_reads (hashLen33to64_reads m (by omega) h3)
  · exact hashLong_reads (by omega)

theorem hashWrites_reads {r : Except ReadFail Hashed} {P : Prop} (h : ReadsExactly r P) :
    ReadsExactly (hashWrites r) P := h.map _

theorem bucketWrites_reads (c : Config) {r : Except ReadFail Hashed} {P : Prop} (h : ReadsExactly r P) :
    ReadsExactly (bucketWrites c r) P := h.map _

/-! ### Two inputs of one length with the same bytes below it hash alike (R47). -/

/-- The inputs have one length and the same bytes below it. -/
structure Input.Same (i j : Input) : Prop where
  len : i.len = j.len
  bytes : ∀ a, a < i.len → i.buf.read a = j.buf.read a

theorem Input.Same.read8 {i j : Input} (h : i.Same j) (o : Nat) : Machine.read8 i o = Machine.read8 j o :=
  read8_congr h.len (fun ho => h.bytes o ho)

theorem Input.Same.read32 {i j : Input} (h : i.Same j) (o : Nat) : Machine.read32 i o = Machine.read32 j o :=
  read32_congr h.len (fun a _ h2 h3 => h.bytes a (by omega))

theorem Input.Same.read64 {i j : Input} (h : i.Same j) (o : Nat) : Machine.read64 i o = Machine.read64 j o :=
  read64_congr h.len (fun a _ h2 h3 => h.bytes a (by omega))

theorem Input.Same.stride {i j : Input} (h : i.Same j) (o : Nat) (m : Word) (t : Bool) (k : KernelState) :
    Machine.stride i o m t k = Machine.stride j o m t k := by
  simp only [Machine.stride, weakHash32, h.read64]

theorem Input.Same.strides {i j : Input} (h : i.Same j) (count o : Nat) (k : KernelState) :
    Machine.strides i count o k = Machine.strides j count o k := by
  induction count generalizing o k with
  | zero => rfl
  | succ count ih => simp only [Machine.strides, h.stride, ih]

theorem Input.Same.hashLong {i j : Input} (h : i.Same j) : Machine.hashLong i = Machine.hashLong j := by
  simp only [Machine.hashLong, h.stride, h.strides, h.read64, h.len]

theorem Input.Same.hashLen0to16 {i j : Input} (h : i.Same j) : Machine.hashLen0to16 i = Machine.hashLen0to16 j := by
  simp only [Machine.hashLen0to16, hashLen8to16, hashLen4to7, hashLen1to3, h.read64, h.read32, h.read8, h.len]

theorem Input.Same.hashLen17to32 {i j : Input} (h : i.Same j) :
    Machine.hashLen17to32 i = Machine.hashLen17to32 j := by
  simp only [Machine.hashLen17to32, h.read64, h.len]

theorem Input.Same.hashLen33to64 {i j : Input} (h : i.Same j) (m : A33Mul) :
    Machine.hashLen33to64 m i = Machine.hashLen33to64 m j := by
  simp only [Machine.hashLen33to64, h.read64, h.len]

theorem Input.Same.topHash {i j : Input} (h : i.Same j) (m : A33Mul) : Machine.topHash m i = Machine.topHash m j := by
  simp only [Machine.topHash, h.len, h.hashLen0to16, h.hashLen17to32, h.hashLen33to64, h.hashLong]

/-- R111: `weakHash32` at `o` depends on BUF[o..o+32) alone. -/
theorem weakHash32_congr {i j : Input} {o : Nat} (a b : Word) (hl : i.len = j.len)
    (h : ∀ x, o ≤ x → x < o + 32 → i.buf.read x = j.buf.read x) : weakHash32 i o a b = weakHash32 j o a b := by
  have e : ∀ d, d ≤ 24 → read64 i (o + d) = read64 j (o + d) := fun d hd =>
    read64_congr hl (fun x h1 h2 _ => h x (by omega) (by omega))
  have e0 : read64 i o = read64 j o := e 0 (by omega)
  simp only [weakHash32, e0, e 8 (by omega), e 16 (by omega), e 24 (by omega)]

end Sys2Proof.Machine
end

