-- ==== Sys2Proof/Laws/State.lean ====
section
/-! SUPPORT. One lemma per field of State per named update of it, so that no proof unfolds a record update. -/

namespace Sys2Proof.Machine

/-! ### State.succeed -/

@[simp] theorem State.succeed_cfg (s : State) (w : Writes) : (s.succeed w).cfg = s.cfg := rfl
@[simp] theorem State.succeed_status (s : State) (w : Writes) : (s.succeed w).status = statusSuccess := rfl
@[simp] theorem State.succeed_len (s : State) (w : Writes) : (s.succeed w).len = s.len := rfl
@[simp] theorem State.succeed_off (s : State) (w : Writes) : (s.succeed w).off = s.off := rfl
@[simp] theorem State.succeed_opa (s : State) (w : Writes) : (s.succeed w).opa = s.opa := rfl
@[simp] theorem State.succeed_opb (s : State) (w : Writes) : (s.succeed w).opb = s.opb := rfl
@[simp] theorem State.succeed_opm (s : State) (w : Writes) : (s.succeed w).opm = s.opm := rfl
@[simp] theorem State.succeed_res0 (s : State) (w : Writes) : (s.succeed w).res0 = w.res0 := rfl
@[simp] theorem State.succeed_res1 (s : State) (w : Writes) : (s.succeed w).res1 = w.res1.getD s.res1 := rfl
@[simp] theorem State.succeed_buf (s : State) (w : Writes) : (s.succeed w).buf = s.buf := rfl
@[simp] theorem State.succeed_pending (s : State) (w : Writes) : (s.succeed w).pending = none := rfl
@[simp] theorem State.succeed_kernel (s : State) (w : Writes) : (s.succeed w).kernel = w.kernel.getD s.kernel := rfl
@[simp] theorem State.succeed_faults (s : State) (w : Writes) : (s.succeed w).faults = s.faults := rfl
@[simp] theorem State.succeed_turns (s : State) (w : Writes) : (s.succeed w).turns = s.turns := rfl
@[simp] theorem State.succeed_got (s : State) (w : Writes) : (s.succeed w).got = s.got := rfl
@[simp] theorem State.succeed_draws (s : State) (w : Writes) : (s.succeed w).draws = s.draws := rfl

/-! ### State.raiseError -/

@[simp] theorem State.raiseError_cfg (s : State) (c : ErrCode) : (s.raiseError c).cfg = s.cfg := rfl
@[simp] theorem State.raiseError_status (s : State) (c : ErrCode) : (s.raiseError c).status = statusError c := rfl
@[simp] theorem State.raiseError_len (s : State) (c : ErrCode) : (s.raiseError c).len = s.len := rfl
@[simp] theorem State.raiseError_off (s : State) (c : ErrCode) : (s.raiseError c).off = s.off := rfl
@[simp] theorem State.raiseError_opa (s : State) (c : ErrCode) : (s.raiseError c).opa = s.opa := rfl
@[simp] theorem State.raiseError_opb (s : State) (c : ErrCode) : (s.raiseError c).opb = s.opb := rfl
@[simp] theorem State.raiseError_opm (s : State) (c : ErrCode) : (s.raiseError c).opm = s.opm := rfl
@[simp] theorem State.raiseError_res0 (s : State) (c : ErrCode) : (s.raiseError c).res0 = s.res0 := rfl
@[simp] theorem State.raiseError_res1 (s : State) (c : ErrCode) : (s.raiseError c).res1 = s.res1 := rfl
@[simp] theorem State.raiseError_buf (s : State) (c : ErrCode) : (s.raiseError c).buf = s.buf := rfl
@[simp] theorem State.raiseError_pending (s : State) (c : ErrCode) : (s.raiseError c).pending = none := rfl
@[simp] theorem State.raiseError_kernel (s : State) (c : ErrCode) : (s.raiseError c).kernel = s.kernel := rfl
@[simp] theorem State.raiseError_faults (s : State) (c : ErrCode) : (s.raiseError c).faults = s.faults := rfl
@[simp] theorem State.raiseError_turns (s : State) (c : ErrCode) : (s.raiseError c).turns = s.turns := rfl
@[simp] theorem State.raiseError_got (s : State) (c : ErrCode) : (s.raiseError c).got = s.got := rfl
@[simp] theorem State.raiseError_draws (s : State) (c : ErrCode) : (s.raiseError c).draws = s.draws := rfl

/-! ### State.completeUnspecified -/

@[simp] theorem State.completeUnspecified_cfg (s : State) (r k : Bool) : (s.completeUnspecified r k).cfg = s.cfg := rfl
@[simp] theorem State.completeUnspecified_status (s : State) (r k : Bool) : (s.completeUnspecified r k).status = statusSuccess := rfl
@[simp] theorem State.completeUnspecified_len (s : State) (r k : Bool) : (s.completeUnspecified r k).len = s.len := rfl
@[simp] theorem State.completeUnspecified_off (s : State) (r k : Bool) : (s.completeUnspecified r k).off = s.off := rfl
@[simp] theorem State.completeUnspecified_opa (s : State) (r k : Bool) : (s.completeUnspecified r k).opa = s.opa := rfl
@[simp] theorem State.completeUnspecified_opb (s : State) (r k : Bool) : (s.completeUnspecified r k).opb = s.opb := rfl
@[simp] theorem State.completeUnspecified_opm (s : State) (r k : Bool) : (s.completeUnspecified r k).opm = s.opm := rfl
@[simp] theorem State.completeUnspecified_res0 (s : State) (r k : Bool) : (s.completeUnspecified r k).res0 = Config.freeWord s.draws := rfl
@[simp] theorem State.completeUnspecified_res1 (s : State) (r k : Bool) : (s.completeUnspecified r k).res1 = if r then Config.freeWord (s.draws + 1) else s.res1 := rfl
@[simp] theorem State.completeUnspecified_buf (s : State) (r k : Bool) : (s.completeUnspecified r k).buf = s.buf := rfl
@[simp] theorem State.completeUnspecified_pending (s : State) (r k : Bool) : (s.completeUnspecified r k).pending = none := rfl
@[simp] theorem State.completeUnspecified_kernel (s : State) (r k : Bool) : (s.completeUnspecified r k).kernel = if k then freeKernel (s.draws + 2) else s.kernel := rfl
@[simp] theorem State.completeUnspecified_faults (s : State) (r k : Bool) : (s.completeUnspecified r k).faults = s.faults.record .unwrittenRead := rfl
@[simp] theorem State.completeUnspecified_turns (s : State) (r k : Bool) : (s.completeUnspecified r k).turns = s.turns := rfl
@[simp] theorem State.completeUnspecified_got (s : State) (r k : Bool) : (s.completeUnspecified r k).got = s.got := rfl
@[simp] theorem State.completeUnspecified_draws (s : State) (r k : Bool) : (s.completeUnspecified r k).draws = s.draws + 9 := rfl

/-! ### State.recordFault -/

@[simp] theorem State.recordFault_cfg (s : State) (f : Fault) : (s.recordFault f).cfg = s.cfg := rfl
@[simp] theorem State.recordFault_status (s : State) (f : Fault) : (s.recordFault f).status = s.status := rfl
@[simp] theorem State.recordFault_len (s : State) (f : Fault) : (s.recordFault f).len = s.len := rfl
@[simp] theorem State.recordFault_off (s : State) (f : Fault) : (s.recordFault f).off = s.off := rfl
@[simp] theorem State.recordFault_opa (s : State) (f : Fault) : (s.recordFault f).opa = s.opa := rfl
@[simp] theorem State.recordFault_opb (s : State) (f : Fault) : (s.recordFault f).opb = s.opb := rfl
@[simp] theorem State.recordFault_opm (s : State) (f : Fault) : (s.recordFault f).opm = s.opm := rfl
@[simp] theorem State.recordFault_res0 (s : State) (f : Fault) : (s.recordFault f).res0 = s.res0 := rfl
@[simp] theorem State.recordFault_res1 (s : State) (f : Fault) : (s.recordFault f).res1 = s.res1 := rfl
@[simp] theorem State.recordFault_buf (s : State) (f : Fault) : (s.recordFault f).buf = s.buf := rfl
@[simp] theorem State.recordFault_pending (s : State) (f : Fault) : (s.recordFault f).pending = s.pending := rfl
@[simp] theorem State.recordFault_kernel (s : State) (f : Fault) : (s.recordFault f).kernel = s.kernel := rfl
@[simp] theorem State.recordFault_faults (s : State) (f : Fault) : (s.recordFault f).faults = s.faults.record f := rfl
@[simp] theorem State.recordFault_turns (s : State) (f : Fault) : (s.recordFault f).turns = s.turns := rfl
@[simp] theorem State.recordFault_got (s : State) (f : Fault) : (s.recordFault f).got = s.got := rfl
@[simp] theorem State.recordFault_draws (s : State) (f : Fault) : (s.recordFault f).draws = s.draws := rfl

/-! ### State.issue -/

@[simp] theorem State.issue_cfg (s : State) (w : Word32) : (s.issue w).cfg = s.cfg := rfl
@[simp] theorem State.issue_status (s : State) (w : Word32) : (s.issue w).status = statusIssued := rfl
@[simp] theorem State.issue_len (s : State) (w : Word32) : (s.issue w).len = s.len := rfl
@[simp] theorem State.issue_off (s : State) (w : Word32) : (s.issue w).off = s.off := rfl
@[simp] theorem State.issue_opa (s : State) (w : Word32) : (s.issue w).opa = s.opa := rfl
@[simp] theorem State.issue_opb (s : State) (w : Word32) : (s.issue w).opb = s.opb := rfl
@[simp] theorem State.issue_opm (s : State) (w : Word32) : (s.issue w).opm = s.opm := rfl
@[simp] theorem State.issue_res0 (s : State) (w : Word32) : (s.issue w).res0 = s.res0 := rfl
@[simp] theorem State.issue_res1 (s : State) (w : Word32) : (s.issue w).res1 = s.res1 := rfl
@[simp] theorem State.issue_buf (s : State) (w : Word32) : (s.issue w).buf = s.buf := rfl
@[simp] theorem State.issue_pending (s : State) (w : Word32) : (s.issue w).pending = some w := rfl
@[simp] theorem State.issue_kernel (s : State) (w : Word32) : (s.issue w).kernel = s.kernel := rfl
@[simp] theorem State.issue_faults (s : State) (w : Word32) : (s.issue w).faults = s.faults := rfl
@[simp] theorem State.issue_turns (s : State) (w : Word32) : (s.issue w).turns = s.turns := rfl
@[simp] theorem State.issue_got (s : State) (w : Word32) : (s.issue w).got = s.got := rfl
@[simp] theorem State.issue_draws (s : State) (w : Word32) : (s.issue w).draws = s.draws := rfl

/-! ### State.deliver -/

@[simp] theorem State.deliver_cfg (s : State) (v : Word) : (s.deliver v).cfg = s.cfg := rfl
@[simp] theorem State.deliver_status (s : State) (v : Word) : (s.deliver v).status = s.status := rfl
@[simp] theorem State.deliver_len (s : State) (v : Word) : (s.deliver v).len = s.len := rfl
@[simp] theorem State.deliver_off (s : State) (v : Word) : (s.deliver v).off = s.off := rfl
@[simp] theorem State.deliver_opa (s : State) (v : Word) : (s.deliver v).opa = s.opa := rfl
@[simp] theorem State.deliver_opb (s : State) (v : Word) : (s.deliver v).opb = s.opb := rfl
@[simp] theorem State.deliver_opm (s : State) (v : Word) : (s.deliver v).opm = s.opm := rfl
@[simp] theorem State.deliver_res0 (s : State) (v : Word) : (s.deliver v).res0 = s.res0 := rfl
@[simp] theorem State.deliver_res1 (s : State) (v : Word) : (s.deliver v).res1 = s.res1 := rfl
@[simp] theorem State.deliver_buf (s : State) (v : Word) : (s.deliver v).buf = s.buf := rfl
@[simp] theorem State.deliver_pending (s : State) (v : Word) : (s.deliver v).pending = s.pending := rfl
@[simp] theorem State.deliver_kernel (s : State) (v : Word) : (s.deliver v).kernel = s.kernel := rfl
@[simp] theorem State.deliver_faults (s : State) (v : Word) : (s.deliver v).faults = s.faults := rfl
@[simp] theorem State.deliver_turns (s : State) (v : Word) : (s.deliver v).turns = s.turns := rfl
@[simp] theorem State.deliver_got (s : State) (v : Word) : (s.deliver v).got = v :: s.got := rfl
@[simp] theorem State.deliver_draws (s : State) (v : Word) : (s.deliver v).draws = s.draws + 8 := rfl

/-! ### State.withTurns -/

@[simp] theorem State.withTurns_cfg (s : State) (l : List Turn) : (s.withTurns l).cfg = s.cfg := rfl
@[simp] theorem State.withTurns_status (s : State) (l : List Turn) : (s.withTurns l).status = s.status := rfl
@[simp] theorem State.withTurns_len (s : State) (l : List Turn) : (s.withTurns l).len = s.len := rfl
@[simp] theorem State.withTurns_off (s : State) (l : List Turn) : (s.withTurns l).off = s.off := rfl
@[simp] theorem State.withTurns_opa (s : State) (l : List Turn) : (s.withTurns l).opa = s.opa := rfl
@[simp] theorem State.withTurns_opb (s : State) (l : List Turn) : (s.withTurns l).opb = s.opb := rfl
@[simp] theorem State.withTurns_opm (s : State) (l : List Turn) : (s.withTurns l).opm = s.opm := rfl
@[simp] theorem State.withTurns_res0 (s : State) (l : List Turn) : (s.withTurns l).res0 = s.res0 := rfl
@[simp] theorem State.withTurns_res1 (s : State) (l : List Turn) : (s.withTurns l).res1 = s.res1 := rfl
@[simp] theorem State.withTurns_buf (s : State) (l : List Turn) : (s.withTurns l).buf = s.buf := rfl
@[simp] theorem State.withTurns_pending (s : State) (l : List Turn) : (s.withTurns l).pending = s.pending := rfl
@[simp] theorem State.withTurns_kernel (s : State) (l : List Turn) : (s.withTurns l).kernel = s.kernel := rfl
@[simp] theorem State.withTurns_faults (s : State) (l : List Turn) : (s.withTurns l).faults = s.faults := rfl
@[simp] theorem State.withTurns_turns (s : State) (l : List Turn) : (s.withTurns l).turns = l := rfl
@[simp] theorem State.withTurns_got (s : State) (l : List Turn) : (s.withTurns l).got = s.got := rfl
@[simp] theorem State.withTurns_draws (s : State) (l : List Turn) : (s.withTurns l).draws = s.draws := rfl

/-! ### State.placeCommand -/

@[simp] theorem State.placeCommand_cfg (s : State) (w : Word32) : (s.placeCommand w).cfg = s.cfg := rfl
@[simp] theorem State.placeCommand_status (s : State) (w : Word32) : (s.placeCommand w).status = statusIssued := rfl
@[simp] theorem State.placeCommand_len (s : State) (w : Word32) : (s.placeCommand w).len = s.len := rfl
@[simp] theorem State.placeCommand_off (s : State) (w : Word32) : (s.placeCommand w).off = s.off := rfl
@[simp] theorem State.placeCommand_opa (s : State) (w : Word32) : (s.placeCommand w).opa = s.opa := rfl
@[simp] theorem State.placeCommand_opb (s : State) (w : Word32) : (s.placeCommand w).opb = s.opb := rfl
@[simp] theorem State.placeCommand_opm (s : State) (w : Word32) : (s.placeCommand w).opm = s.opm := rfl
@[simp] theorem State.placeCommand_res0 (s : State) (w : Word32) : (s.placeCommand w).res0 = s.res0 := rfl
@[simp] theorem State.placeCommand_res1 (s : State) (w : Word32) : (s.placeCommand w).res1 = s.res1 := rfl
@[simp] theorem State.placeCommand_buf (s : State) (w : Word32) : (s.placeCommand w).buf = s.buf := rfl
@[simp] theorem State.placeCommand_pending (s : State) (w : Word32) : (s.placeCommand w).pending = some w := rfl
@[simp] theorem State.placeCommand_kernel (s : State) (w : Word32) : (s.placeCommand w).kernel = s.kernel := rfl
@[simp] theorem State.placeCommand_faults (s : State) (w : Word32) : (s.placeCommand w).faults = s.faults := rfl
@[simp] theorem State.placeCommand_turns (s : State) (w : Word32) : (s.placeCommand w).turns = .core :: s.turns := rfl
@[simp] theorem State.placeCommand_got (s : State) (w : Word32) : (s.placeCommand w).got = s.got := rfl
@[simp] theorem State.placeCommand_draws (s : State) (w : Word32) : (s.placeCommand w).draws = s.draws := rfl

/-! ### State.blockReset -/

@[simp] theorem State.blockReset_cfg (s : State) : s.blockReset.cfg = s.cfg := rfl
@[simp] theorem State.blockReset_status (s : State) : s.blockReset.status = 0 := rfl
@[simp] theorem State.blockReset_len (s : State) : s.blockReset.len = 0 := rfl
@[simp] theorem State.blockReset_off (s : State) : s.blockReset.off = 0 := rfl
@[simp] theorem State.blockReset_opa (s : State) : s.blockReset.opa = 0 := rfl
@[simp] theorem State.blockReset_opb (s : State) : s.blockReset.opb = 0 := rfl
@[simp] theorem State.blockReset_opm (s : State) : s.blockReset.opm = 0 := rfl
@[simp] theorem State.blockReset_res0 (s : State) : s.blockReset.res0 = 0 := rfl
@[simp] theorem State.blockReset_res1 (s : State) : s.blockReset.res1 = 0 := rfl
@[simp] theorem State.blockReset_buf (s : State) : s.blockReset.buf = [] := rfl
@[simp] theorem State.blockReset_pending (s : State) : s.blockReset.pending = none := rfl
@[simp] theorem State.blockReset_kernel (s : State) : s.blockReset.kernel = KernelState.zero := rfl
@[simp] theorem State.blockReset_faults (s : State) : s.blockReset.faults = s.faults := rfl
@[simp] theorem State.blockReset_turns (s : State) : s.blockReset.turns = s.turns := rfl
@[simp] theorem State.blockReset_got (s : State) : s.blockReset.got = s.got := rfl
@[simp] theorem State.blockReset_draws (s : State) : s.blockReset.draws = s.draws := rfl

/-! ### State.setLen -/

@[simp] theorem State.setLen_cfg (s : State) (v : Word) : (s.setLen v).cfg = s.cfg := rfl
@[simp] theorem State.setLen_status (s : State) (v : Word) : (s.setLen v).status = s.status := rfl
@[simp] theorem State.setLen_len (s : State) (v : Word) : (s.setLen v).len = v := rfl
@[simp] theorem State.setLen_off (s : State) (v : Word) : (s.setLen v).off = s.off := rfl
@[simp] theorem State.setLen_opa (s : State) (v : Word) : (s.setLen v).opa = s.opa := rfl
@[simp] theorem State.setLen_opb (s : State) (v : Word) : (s.setLen v).opb = s.opb := rfl
@[simp] theorem State.setLen_opm (s : State) (v : Word) : (s.setLen v).opm = s.opm := rfl
@[simp] theorem State.setLen_res0 (s : State) (v : Word) : (s.setLen v).res0 = s.res0 := rfl
@[simp] theorem State.setLen_res1 (s : State) (v : Word) : (s.setLen v).res1 = s.res1 := rfl
@[simp] theorem State.setLen_buf (s : State) (v : Word) : (s.setLen v).buf = s.buf := rfl
@[simp] theorem State.setLen_pending (s : State) (v : Word) : (s.setLen v).pending = s.pending := rfl
@[simp] theorem State.setLen_kernel (s : State) (v : Word) : (s.setLen v).kernel = s.kernel := rfl
@[simp] theorem State.setLen_faults (s : State) (v : Word) : (s.setLen v).faults = s.faults := rfl
@[simp] theorem State.setLen_turns (s : State) (v : Word) : (s.setLen v).turns = s.turns := rfl
@[simp] theorem State.setLen_got (s : State) (v : Word) : (s.setLen v).got = s.got := rfl
@[simp] theorem State.setLen_draws (s : State) (v : Word) : (s.setLen v).draws = s.draws := rfl

/-! ### State.setOff -/

@[simp] theorem State.setOff_cfg (s : State) (v : Word) : (s.setOff v).cfg = s.cfg := rfl
@[simp] theorem State.setOff_status (s : State) (v : Word) : (s.setOff v).status = s.status := rfl
@[simp] theorem State.setOff_len (s : State) (v : Word) : (s.setOff v).len = s.len := rfl
@[simp] theorem State.setOff_off (s : State) (v : Word) : (s.setOff v).off = v := rfl
@[simp] theorem State.setOff_opa (s : State) (v : Word) : (s.setOff v).opa = s.opa := rfl
@[simp] theorem State.setOff_opb (s : State) (v : Word) : (s.setOff v).opb = s.opb := rfl
@[simp] theorem State.setOff_opm (s : State) (v : Word) : (s.setOff v).opm = s.opm := rfl
@[simp] theorem State.setOff_res0 (s : State) (v : Word) : (s.setOff v).res0 = s.res0 := rfl
@[simp] theorem State.setOff_res1 (s : State) (v : Word) : (s.setOff v).res1 = s.res1 := rfl
@[simp] theorem State.setOff_buf (s : State) (v : Word) : (s.setOff v).buf = s.buf := rfl
@[simp] theorem State.setOff_pending (s : State) (v : Word) : (s.setOff v).pending = s.pending := rfl
@[simp] theorem State.setOff_kernel (s : State) (v : Word) : (s.setOff v).kernel = s.kernel := rfl
@[simp] theorem State.setOff_faults (s : State) (v : Word) : (s.setOff v).faults = s.faults := rfl
@[simp] theorem State.setOff_turns (s : State) (v : Word) : (s.setOff v).turns = s.turns := rfl
@[simp] theorem State.setOff_got (s : State) (v : Word) : (s.setOff v).got = s.got := rfl
@[simp] theorem State.setOff_draws (s : State) (v : Word) : (s.setOff v).draws = s.draws := rfl

/-! ### State.setOpa -/

@[simp] theorem State.setOpa_cfg (s : State) (v : Word) : (s.setOpa v).cfg = s.cfg := rfl
@[simp] theorem State.setOpa_status (s : State) (v : Word) : (s.setOpa v).status = s.status := rfl
@[simp] theorem State.setOpa_len (s : State) (v : Word) : (s.setOpa v).len = s.len := rfl
@[simp] theorem State.setOpa_off (s : State) (v : Word) : (s.setOpa v).off = s.off := rfl
@[simp] theorem State.setOpa_opa (s : State) (v : Word) : (s.setOpa v).opa = v := rfl
@[simp] theorem State.setOpa_opb (s : State) (v : Word) : (s.setOpa v).opb = s.opb := rfl
@[simp] theorem State.setOpa_opm (s : State) (v : Word) : (s.setOpa v).opm = s.opm := rfl
@[simp] theorem State.setOpa_res0 (s : State) (v : Word) : (s.setOpa v).res0 = s.res0 := rfl
@[simp] theorem State.setOpa_res1 (s : State) (v : Word) : (s.setOpa v).res1 = s.res1 := rfl
@[simp] theorem State.setOpa_buf (s : State) (v : Word) : (s.setOpa v).buf = s.buf := rfl
@[simp] theorem State.setOpa_pending (s : State) (v : Word) : (s.setOpa v).pending = s.pending := rfl
@[simp] theorem State.setOpa_kernel (s : State) (v : Word) : (s.setOpa v).kernel = s.kernel := rfl
@[simp] theorem State.setOpa_faults (s : State) (v : Word) : (s.setOpa v).faults = s.faults := rfl
@[simp] theorem State.setOpa_turns (s : State) (v : Word) : (s.setOpa v).turns = s.turns := rfl
@[simp] theorem State.setOpa_got (s : State) (v : Word) : (s.setOpa v).got = s.got := rfl
@[simp] theorem State.setOpa_draws (s : State) (v : Word) : (s.setOpa v).draws = s.draws := rfl

/-! ### State.setOpb -/

@[simp] theorem State.setOpb_cfg (s : State) (v : Word) : (s.setOpb v).cfg = s.cfg := rfl
@[simp] theorem State.setOpb_status (s : State) (v : Word) : (s.setOpb v).status = s.status := rfl
@[simp] theorem State.setOpb_len (s : State) (v : Word) : (s.setOpb v).len = s.len := rfl
@[simp] theorem State.setOpb_off (s : State) (v : Word) : (s.setOpb v).off = s.off := rfl
@[simp] theorem State.setOpb_opa (s : State) (v : Word) : (s.setOpb v).opa = s.opa := rfl
@[simp] theorem State.setOpb_opb (s : State) (v : Word) : (s.setOpb v).opb = v := rfl
@[simp] theorem State.setOpb_opm (s : State) (v : Word) : (s.setOpb v).opm = s.opm := rfl
@[simp] theorem State.setOpb_res0 (s : State) (v : Word) : (s.setOpb v).res0 = s.res0 := rfl
@[simp] theorem State.setOpb_res1 (s : State) (v : Word) : (s.setOpb v).res1 = s.res1 := rfl
@[simp] theorem State.setOpb_buf (s : State) (v : Word) : (s.setOpb v).buf = s.buf := rfl
@[simp] theorem State.setOpb_pending (s : State) (v : Word) : (s.setOpb v).pending = s.pending := rfl
@[simp] theorem State.setOpb_kernel (s : State) (v : Word) : (s.setOpb v).kernel = s.kernel := rfl
@[simp] theorem State.setOpb_faults (s : State) (v : Word) : (s.setOpb v).faults = s.faults := rfl
@[simp] theorem State.setOpb_turns (s : State) (v : Word) : (s.setOpb v).turns = s.turns := rfl
@[simp] theorem State.setOpb_got (s : State) (v : Word) : (s.setOpb v).got = s.got := rfl
@[simp] theorem State.setOpb_draws (s : State) (v : Word) : (s.setOpb v).draws = s.draws := rfl

/-! ### State.setOpm -/

@[simp] theorem State.setOpm_cfg (s : State) (v : Word) : (s.setOpm v).cfg = s.cfg := rfl
@[simp] theorem State.setOpm_status (s : State) (v : Word) : (s.setOpm v).status = s.status := rfl
@[simp] theorem State.setOpm_len (s : State) (v : Word) : (s.setOpm v).len = s.len := rfl
@[simp] theorem State.setOpm_off (s : State) (v : Word) : (s.setOpm v).off = s.off := rfl
@[simp] theorem State.setOpm_opa (s : State) (v : Word) : (s.setOpm v).opa = s.opa := rfl
@[simp] theorem State.setOpm_opb (s : State) (v : Word) : (s.setOpm v).opb = s.opb := rfl
@[simp] theorem State.setOpm_opm (s : State) (v : Word) : (s.setOpm v).opm = v := rfl
@[simp] theorem State.setOpm_res0 (s : State) (v : Word) : (s.setOpm v).res0 = s.res0 := rfl
@[simp] theorem State.setOpm_res1 (s : State) (v : Word) : (s.setOpm v).res1 = s.res1 := rfl
@[simp] theorem State.setOpm_buf (s : State) (v : Word) : (s.setOpm v).buf = s.buf := rfl
@[simp] theorem State.setOpm_pending (s : State) (v : Word) : (s.setOpm v).pending = s.pending := rfl
@[simp] theorem State.setOpm_kernel (s : State) (v : Word) : (s.setOpm v).kernel = s.kernel := rfl
@[simp] theorem State.setOpm_faults (s : State) (v : Word) : (s.setOpm v).faults = s.faults := rfl
@[simp] theorem State.setOpm_turns (s : State) (v : Word) : (s.setOpm v).turns = s.turns := rfl
@[simp] theorem State.setOpm_got (s : State) (v : Word) : (s.setOpm v).got = s.got := rfl
@[simp] theorem State.setOpm_draws (s : State) (v : Word) : (s.setOpm v).draws = s.draws := rfl

/-! ### State.setBuf -/

@[simp] theorem State.setBuf_cfg (s : State) (v : Memory) : (s.setBuf v).cfg = s.cfg := rfl
@[simp] theorem State.setBuf_status (s : State) (v : Memory) : (s.setBuf v).status = s.status := rfl
@[simp] theorem State.setBuf_len (s : State) (v : Memory) : (s.setBuf v).len = s.len := rfl
@[simp] theorem State.setBuf_off (s : State) (v : Memory) : (s.setBuf v).off = s.off := rfl
@[simp] theorem State.setBuf_opa (s : State) (v : Memory) : (s.setBuf v).opa = s.opa := rfl
@[simp] theorem State.setBuf_opb (s : State) (v : Memory) : (s.setBuf v).opb = s.opb := rfl
@[simp] theorem State.setBuf_opm (s : State) (v : Memory) : (s.setBuf v).opm = s.opm := rfl
@[simp] theorem State.setBuf_res0 (s : State) (v : Memory) : (s.setBuf v).res0 = s.res0 := rfl
@[simp] theorem State.setBuf_res1 (s : State) (v : Memory) : (s.setBuf v).res1 = s.res1 := rfl
@[simp] theorem State.setBuf_buf (s : State) (v : Memory) : (s.setBuf v).buf = v := rfl
@[simp] theorem State.setBuf_pending (s : State) (v : Memory) : (s.setBuf v).pending = s.pending := rfl
@[simp] theorem State.setBuf_kernel (s : State) (v : Memory) : (s.setBuf v).kernel = s.kernel := rfl
@[simp] theorem State.setBuf_faults (s : State) (v : Memory) : (s.setBuf v).faults = s.faults := rfl
@[simp] theorem State.setBuf_turns (s : State) (v : Memory) : (s.setBuf v).turns = s.turns := rfl
@[simp] theorem State.setBuf_got (s : State) (v : Memory) : (s.setBuf v).got = s.got := rfl
@[simp] theorem State.setBuf_draws (s : State) (v : Memory) : (s.setBuf v).draws = s.draws := rfl

end Sys2Proof.Machine
end

