-- ==== Sys2Proof/Laws/Ops.lean ====
section
/-! SUPPORT. What the shared ways to complete a command can answer, and, from them, what `exec` can answer. -/

namespace Sys2Proof.Machine

@[simp] theorem FaultSet.has_record (f : FaultSet) (a b : Fault) :
    (f.record a).has b = (decide (a = b) || f.has b) := by
  cases a <;> cases b <;> simp [FaultSet.record, FaultSet.has]

/-- A computation that reads the bytes of `P` completes a command with its writes, or as R48 (a) says. -/
theorem complete_cases (s : State) (a b : Bool) {r : Except ReadFail Writes} {P : Prop} (h : ReadsExactly r P) :
    (P ∧ ∃ w, r = .ok w ∧ complete s a b r = .next (s.succeed w))
      ∨ (¬P ∧ complete s a b r = .next (s.completeUnspecified a b)) := by
  by_cases p : P
  · obtain ⟨w, rfl⟩ := h.ok p
    exact .inl ⟨p, w, rfl, rfl⟩
  · exact .inr ⟨p, by rw [h.unwritten p]; rfl⟩

theorem checkCapacity_of_gt {s : State} {go : Host.Outcome State Fault Refusal} (h : s.len.toNat > s.cfg.bufBytes) :
    checkCapacity s go = .next (s.raiseError .lenCapacity) := if_pos h

theorem checkCapacity_of_le {s : State} {go : Host.Outcome State Fault Refusal} (h : s.len.toNat ≤ s.cfg.bufBytes) :
    checkCapacity s go = go := if_neg (by omega)

theorem checkThat_of_true {s : State} {ok : Bool} {c : ErrCode} {go : Host.Outcome State Fault Refusal}
    (h : ok = true) : checkThat s ok c go = go := if_pos h

theorem checkThat_of_false {s : State} {ok : Bool} {c : ErrCode} {go : Host.Outcome State Fault Refusal}
    (h : ok = false) : checkThat s ok c go = .next (s.raiseError c) := by
  unfold checkThat; rw [if_neg (by simp [h])]

/-- R112: the check of OFF against LEN, on exact integers. -/
theorem offsetInRange_iff (s : State) : offsetInRange s = true ↔ s.off.toNat + 32 ≤ s.len.toNat := by
  simp [offsetInRange]; omega

theorem weakHashWrites_reads {s : State} (h : s.off.toNat + 32 ≤ s.len.toNat) :
    ReadsExactly (weakHashWrites s) (s.buf.Written s.off.toNat 32) :=
  (weakHash32_reads (i := operandInput s) s.opa s.opb h).map _

/-! ### A buffer command past its checks is the completion of its kernel's reads. -/

theorem exec_hash64_runs {s : State} (hc : s.len.toNat ≤ s.cfg.bufBytes) :
    exec .hash64 s
      = complete s false (64 < s.len.toNat) (hashWrites (topHash s.cfg.a33 (operandInput s))) :=
  checkCapacity_of_le hc

theorem exec_hashlen0to16_runs {s : State} (hc : s.len.toNat ≤ s.cfg.bufBytes) (h : s.len.toNat ≤ 16) :
    exec .hashlen0to16 s = complete s false false (hashWrites (shortHash (hashLen0to16 (operandInput s)))) :=
  (checkCapacity_of_le hc).trans (checkThat_of_true (by simpa using h))

theorem exec_hashlen17to32_runs {s : State} (hc : s.len.toNat ≤ s.cfg.bufBytes) (h : 17 ≤ s.len.toNat)
    (h' : s.len.toNat ≤ 32) :
    exec .hashlen17to32 s = complete s false false (hashWrites (shortHash (hashLen17to32 (operandInput s)))) :=
  (checkCapacity_of_le hc).trans (checkThat_of_true (by simp [h, h']))

theorem exec_hashlen33to64_runs {s : State} (hc : s.len.toNat ≤ s.cfg.bufBytes) (h : 33 ≤ s.len.toNat)
    (h' : s.len.toNat ≤ 64) :
    exec .hashlen33to64 s
      = complete s false false (hashWrites (shortHash (hashLen33to64 s.cfg.a33 (operandInput s)))) :=
  (checkCapacity_of_le hc).trans (checkThat_of_true (by simp [h, h']))

theorem exec_hashlong_runs {s : State} (hc : s.len.toNat ≤ s.cfg.bufBytes) (h : 65 ≤ s.len.toNat) :
    exec .hashlong s = complete s false true (hashWrites (hashLong (operandInput s))) :=
  (checkCapacity_of_le hc).trans (checkThat_of_true (by simpa using h))

theorem exec_weakhash32_runs {s : State} (hc : s.len.toNat ≤ s.cfg.bufBytes)
    (h : s.off.toNat + 32 ≤ s.len.toNat) :
    exec .weakhash32 s = complete s true false (weakHashWrites s) :=
  (checkCapacity_of_le hc).trans (checkThat_of_true ((offsetInRange_iff s).2 h))

theorem exec_hashbucket_runs {s : State} (hc : s.len.toNat ≤ s.cfg.bufBytes) :
    exec .hashbucket s
      = complete s true (64 < s.len.toNat) (bucketWrites s.cfg (topHash s.cfg.a33 (operandInput s))) :=
  checkCapacity_of_le hc

end Sys2Proof.Machine
end

