-- ==== Sys2Proof/Laws/Exec.lean ====
section
/-! SUPPORT. What `exec` can answer, said once for all commands: one of three errors, each where R141 puts it; or a
completion with the command's writes where every byte it reads is written; or R48's completion where one is not. -/

namespace Sys2Proof.Machine

/-- Every byte the command reads is written. -/
def InputReady : Instr → State → Prop
  | .hash64, s => s.buf.Written 0 s.len.toNat
  | .hashlen0to16, s => s.buf.Written 0 s.len.toNat
  | .hashlen17to32, s => s.buf.Written 0 s.len.toNat
  | .hashlen33to64, s => s.buf.Written 0 s.len.toNat
  | .hashlong, s => s.buf.Written 0 s.len.toNat
  | .hashbucket, s => s.buf.Written 0 s.len.toNat
  | .weakhash32, s => s.buf.Written s.off.toNat 32
  | .rotr, _ => True
  | .shiftmix, _ => True
  | .hashlen16, _ => True
  | .hash128to64, _ => True
  | .bucket, _ => True

theorem written_iff (m : Memory) (o n : Nat) :
    m.Written o n ↔ ∀ a, o ≤ a → a < o + n → ∃ b, m.read a = some b := by
  simp only [Memory.Written, Option.isSome_iff_exists]

theorem inputWritten_iff (s : State) (o n : Nat) : s.InputWritten o (o + n) ↔ s.buf.Written o n :=
  (written_iff s.buf o n).symm

theorem inputWritten_len_iff (s : State) : s.InputWritten 0 s.len.toNat ↔ s.buf.Written 0 s.len.toNat := by
  simpa using inputWritten_iff s 0 s.len.toNat

theorem not_written_iff (m : Memory) (o n : Nat) :
    ¬ m.Written o n ↔ ∃ a, o ≤ a ∧ a < o + n ∧ m.read a = none := by
  simp [Memory.Written]

/-- The commands that run the long-input kernel on an input of length `n` (R33). -/
def runsLongKernel : Instr → Nat → Bool
  | .hash64, n => 64 < n
  | .hashlong, _ => true
  | .hashbucket, n => 64 < n
  | _, _ => false

/-- What a command that runs to its writes answers. -/
def CommandRuns (i : Instr) (s : State) : Prop :=
  (InputReady i s ∧ ∃ w : Writes, exec i s = .next (s.succeed w) ∧ (writesRes1 i = false → w.res1 = none)
      ∧ (runsLongKernel i s.len.toNat = false → w.kernel = none))
    ∨ (¬ InputReady i s
        ∧ exec i s = .next (s.completeUnspecified (writesRes1 i) (runsLongKernel i s.len.toNat)))

/-- The outcomes of `exec`. -/
inductive ExecOutcome (i : Instr) (s : State) : Prop where
  | capacity (c : checksCapacity i = true) (h : s.len.toNat > s.cfg.bufBytes)
      (e : exec i s = .next (s.raiseError .lenCapacity))
  | band (h : s.len.toNat ≤ s.cfg.bufBytes) (b : inBand i s.len.toNat = false)
      (e : exec i s = .next (s.raiseError .lenBand))
  | range (w : i = .weakhash32) (h : s.len.toNat ≤ s.cfg.bufBytes) (r : s.off.toNat + 32 > s.len.toNat)
      (e : exec i s = .next (s.raiseError .offRange))
  | runs (h : checksCapacity i = true → s.len.toNat ≤ s.cfg.bufBytes) (b : inBand i s.len.toNat = true)
      (r : i = .weakhash32 → s.off.toNat + 32 ≤ s.len.toNat) (c : CommandRuns i s)

theorem wordCommand_outcome {i : Instr} {s : State} (w : Word) (hc : checksCapacity i = false)
    (hb : ∀ n, inBand i n = true) (hi : i ≠ .weakhash32) (hr : InputReady i s)
    (e : exec i s = .next (s.succeed { res0 := w })) : ExecOutcome i s :=
  .runs (fun h => by rw [hc] at h; cases h) (hb _) (fun h => absurd h hi)
    (.inl ⟨hr, _, e, fun _ => rfl, fun _ => rfl⟩)

theorem hashed_kernel_short {r : Except ReadFail Word} {w : Writes} (h : hashWrites (shortHash r) = .ok w) :
    w.res1 = none ∧ w.kernel = none := by
  cases r with
  | error e => cases h
  | ok v => cases h; exact ⟨rfl, rfl⟩

theorem hash_kernel_short {m : A33Mul} {i : Input} {h : Hashed} (hl : i.len ≤ 64) (e : topHash m i = .ok h) :
    h.kernel = none := by
  have short : ∀ r, shortHash r = .ok h → h.kernel = none := by
    intro r e
    cases r with
    | error x => cases e
    | ok v => cases e; rfl
  unfold topHash at e
  split_ifs at e
  · exact short _ e
  · exact short _ e
  · exact short _ e

theorem exec_outcome (i : Instr) (s : State) : ExecOutcome i s := by
  cases i with
  | rotr => exact wordCommand_outcome (rotr s.opa s.opb) rfl (fun _ => rfl) (by simp) trivial rfl
  | shiftmix => exact wordCommand_outcome (shiftMix s.opa) rfl (fun _ => rfl) (by simp) trivial rfl
  | hashlen16 => exact wordCommand_outcome (hashLen16 s.opa s.opb s.opm) rfl (fun _ => rfl) (by simp) trivial rfl
  | hash128to64 => exact wordCommand_outcome (hash128to64 s.opa s.opb) rfl (fun _ => rfl) (by simp) trivial rfl
  | bucket =>
    exact wordCommand_outcome (wordOfNat (bucketOf s.cfg s.opa)) rfl (fun _ => rfl) (by simp) trivial rfl
  | hash64 =>
    by_cases hc : s.len.toNat ≤ s.cfg.bufBytes
    · refine .runs (fun _ => hc) rfl (by simp) ?_
      have e := exec_hash64_runs hc
      rcases complete_cases s false (64 < s.len.toNat) (hashWrites_reads (hash_reads s.cfg.a33 (operandInput s)))
        with ⟨p, w, hw, h⟩ | ⟨p, h⟩
      · refine .inl ⟨p, w, e.trans h, fun _ => ?_, fun hk => ?_⟩
        · cases hh : topHash s.cfg.a33 (operandInput s) with
          | error x => rw [hh] at hw; cases hw
          | ok v => rw [hh] at hw; cases hw; rfl
        · cases hh : topHash s.cfg.a33 (operandInput s) with
          | error x => rw [hh] at hw; cases hw
          | ok v =>
            rw [hh] at hw; cases hw
            exact hash_kernel_short (by simpa [runsLongKernel, operandInput] using hk) hh
      · exact .inr ⟨p, e.trans h⟩
    · exact .capacity rfl (by omega) (checkCapacity_of_gt (by omega))
  | hashbucket =>
    by_cases hc : s.len.toNat ≤ s.cfg.bufBytes
    · refine .runs (fun _ => hc) rfl (by simp) ?_
      have e := exec_hashbucket_runs hc
      rcases complete_cases s true (64 < s.len.toNat)
        (bucketWrites_reads s.cfg (hash_reads s.cfg.a33 (operandInput s))) with ⟨p, w, hw, h⟩ | ⟨p, h⟩
      · refine .inl ⟨p, w, e.trans h, fun hr => (by cases hr), fun hk => ?_⟩
        cases hh : topHash s.cfg.a33 (operandInput s) with
        | error x => rw [hh] at hw; cases hw
        | ok v =>
          rw [hh] at hw; cases hw
          exact hash_kernel_short (by simpa [runsLongKernel, operandInput] using hk) hh
      · exact .inr ⟨p, e.trans h⟩
    · exact .capacity rfl (by omega) (checkCapacity_of_gt (by omega))
  | hashlen0to16 =>
    by_cases hc : s.len.toNat ≤ s.cfg.bufBytes
    · by_cases hb : s.len.toNat ≤ 16
      · have e := exec_hashlen0to16_runs hc hb
        refine .runs (fun _ => hc) (by simpa [inBand] using hb) (by simp) ?_
        rcases complete_cases s false false
          (hashWrites_reads (shortHash_reads (hashLen0to16_reads (i := operandInput s) hb))) with ⟨p, w, hw, h⟩ | ⟨p, h⟩
        · exact .inl ⟨p, w, e.trans h, fun _ => (hashed_kernel_short hw).1, fun _ => (hashed_kernel_short hw).2⟩
        · exact .inr ⟨p, e.trans h⟩
      · exact .band hc (by simpa [inBand] using hb)
          ((checkCapacity_of_le hc).trans (checkThat_of_false (by simpa using hb)))
    · exact .capacity rfl (by omega) (checkCapacity_of_gt (by omega))
  | hashlen17to32 =>
    by_cases hc : s.len.toNat ≤ s.cfg.bufBytes
    · cases hb : inBand .hashlen17to32 s.len.toNat
      · exact .band hc hb ((checkCapacity_of_le hc).trans (checkThat_of_false hb))
      · have hb' : 17 ≤ s.len.toNat ∧ s.len.toNat ≤ 32 := by simpa [inBand] using hb
        have e := exec_hashlen17to32_runs hc hb'.1 hb'.2
        refine .runs (fun _ => hc) hb (by simp) ?_
        rcases complete_cases s false false
          (hashWrites_reads (shortHash_reads (hashLen17to32_reads (i := operandInput s) hb'.1 hb'.2)))
          with ⟨p, w, hw, h⟩ | ⟨p, h⟩
        · exact .inl ⟨p, w, e.trans h, fun _ => (hashed_kernel_short hw).1, fun _ => (hashed_kernel_short hw).2⟩
        · exact .inr ⟨p, e.trans h⟩
    · exact .capacity rfl (by omega) (checkCapacity_of_gt (by omega))
  | hashlen33to64 =>
    by_cases hc : s.len.toNat ≤ s.cfg.bufBytes
    · cases hb : inBand .hashlen33to64 s.len.toNat
      · exact .band hc hb ((checkCapacity_of_le hc).trans (checkThat_of_false hb))
      · have hb' : 33 ≤ s.len.toNat ∧ s.len.toNat ≤ 64 := by simpa [inBand] using hb
        have e := exec_hashlen33to64_runs hc hb'.1 hb'.2
        refine .runs (fun _ => hc) hb (by simp) ?_
        rcases complete_cases s false false
          (hashWrites_reads (shortHash_reads (hashLen33to64_reads (i := operandInput s) s.cfg.a33 hb'.1 hb'.2)))
          with ⟨p, w, hw, h⟩ | ⟨p, h⟩
        · exact .inl ⟨p, w, e.trans h, fun _ => (hashed_kernel_short hw).1, fun _ => (hashed_kernel_short hw).2⟩
        · exact .inr ⟨p, e.trans h⟩
    · exact .capacity rfl (by omega) (checkCapacity_of_gt (by omega))
  | hashlong =>
    by_cases hc : s.len.toNat ≤ s.cfg.bufBytes
    · by_cases hb : 65 ≤ s.len.toNat
      · have e := exec_hashlong_runs hc hb
        refine .runs (fun _ => hc) (by simpa [inBand] using hb) (by simp) ?_
        rcases complete_cases s false true (hashWrites_reads (hashLong_reads (i := operandInput s) hb))
          with ⟨p, w, hw, h⟩ | ⟨p, h⟩
        · refine .inl ⟨p, w, e.trans h, fun _ => ?_, fun hk => by cases hk⟩
          cases hh : hashLong (operandInput s) with
          | error x => rw [hh] at hw; cases hw
          | ok v => rw [hh] at hw; cases hw; rfl
        · exact .inr ⟨p, e.trans h⟩
      · exact .band hc (by simpa [inBand] using hb)
          ((checkCapacity_of_le hc).trans (checkThat_of_false (by simpa using hb)))
    · exact .capacity rfl (by omega) (checkCapacity_of_gt (by omega))
  | weakhash32 =>
    by_cases hc : s.len.toNat ≤ s.cfg.bufBytes
    · by_cases hr : s.off.toNat + 32 ≤ s.len.toNat
      · have e := exec_weakhash32_runs hc hr
        refine .runs (fun _ => hc) rfl (fun _ => hr) ?_
        rcases complete_cases s true false (weakHashWrites_reads hr) with ⟨p, w, hw, h⟩ | ⟨p, h⟩
        · refine .inl ⟨p, w, e.trans h, fun hr => (by cases hr), fun _ => ?_⟩
          unfold weakHashWrites at hw
          cases hh : weakHash32 (operandInput s) (operandOffset s) (operandSeedA s) (operandSeedB s) with
          | error x => rw [hh] at hw; cases hw
          | ok v => rw [hh] at hw; cases hw; rfl
        · exact .inr ⟨p, e.trans h⟩
      · have hf : offsetInRange s = false := by
          rw [Bool.eq_false_iff]
          exact fun h => hr ((offsetInRange_iff s).1 h)
        exact .range rfl hc (by omega) ((checkCapacity_of_le hc).trans (checkThat_of_false hf))
    · exact .capacity rfl (by omega) (checkCapacity_of_gt (by omega))

/-- What the core's step on any word answers: a success, an error, or R48's completion. -/
theorem coreStep_cases (w : Word32) (s : State) :
    (∃ x, coreStep w s = .next (s.succeed x)) ∨ (∃ c, coreStep w s = .next (s.raiseError c))
      ∨ ∃ r k, coreStep w s = .next (s.completeUnspecified r k) := by
  unfold coreStep
  split
  · next i _ =>
    cases exec_outcome i s with
    | capacity c h e => exact .inr (.inl ⟨_, e⟩)
    | band h b e => exact .inr (.inl ⟨_, e⟩)
    | range w h r e => exact .inr (.inl ⟨_, e⟩)
    | runs h b r c =>
      rcases c with ⟨-, w, e, -⟩ | ⟨-, e⟩
      · exact .inl ⟨w, e⟩
      · exact .inr (.inr ⟨_, _, e⟩)
  · exact .inr (.inl ⟨_, rfl⟩)

end Sys2Proof.Machine
end

