-- ==== Sys2Proof/Laws/Memory.lean ====
section
/-! SUPPORT. BUF: a read after a write, and the canonical form and the bound on indices that every write keeps. -/

namespace Sys2Proof.Machine

@[simp] theorem Memory.read_nil (a : Nat) : Memory.read [] a = none := rfl

theorem Memory.read_cons (k : Nat) (v : Byte) (m : Memory) (a : Nat) :
    Memory.read ((k, v) :: m) a = if k = a then some v else Memory.read m a := rfl

@[simp] theorem Memory.read_write_same (m : Memory) (a : Nat) (b : Byte) : (Memory.write m a b).read a = some b := by
  induction m with
  | nil => simp [Memory.write, Memory.read]
  | cons p m ih =>
    obtain ⟨k, v⟩ := p
    simp only [Memory.write]
    split_ifs with h1 h2
    · simp [Memory.read]
    · simp [Memory.read]
    · simp [Memory.read, Ne.symm h2, ih]

theorem Memory.read_write_other (m : Memory) {a c : Nat} (b : Byte) (h : c ≠ a) :
    (Memory.write m a b).read c = Memory.read m c := by
  induction m with
  | nil => simp [Memory.write, Memory.read, Ne.symm h]
  | cons p m ih =>
    obtain ⟨k, v⟩ := p
    simp only [Memory.write]
    split_ifs with h1 h2
    · simp [Memory.read, Ne.symm h]
    · subst h2; simp [Memory.read, Ne.symm h]
    · simp [Memory.read, ih]

theorem Memory.read_write (m : Memory) (a c : Nat) (b : Byte) :
    (Memory.write m a b).read c = if c = a then some b else Memory.read m c := by
  split_ifs with h
  · subst h; simp
  · exact Memory.read_write_other m b h

/-- A written list has the new index and the old ones only. -/
theorem Memory.mem_write {m : Memory} {a : Nat} {b : Byte} {p : Host.Cell} (h : p ∈ Memory.write m a b) :
    p = (a, b) ∨ p ∈ m := by
  induction m with
  | nil => simpa [Memory.write] using h
  | cons q m ih =>
    obtain ⟨k, v⟩ := q
    simp only [Memory.write] at h
    split_ifs at h with h1 h2
    · simpa using h
    · simp only [List.mem_cons] at h ⊢; tauto
    · simp only [List.mem_cons] at h ⊢
      rcases h with h | h
      · exact .inr (.inl h)
      · rcases ih h with h | h
        · exact .inl h
        · exact .inr (.inr h)

/-- A write keeps the canonical form. -/
theorem Memory.write_wf {m : Memory} (a : Nat) (b : Byte) (h : m.wf) : (Memory.write m a b).wf := by
  induction m with
  | nil => simp [Memory.write, Memory.wf]
  | cons q m ih =>
    obtain ⟨k, v⟩ := q
    simp only [Memory.wf, List.pairwise_cons] at h ih
    simp only [Memory.write]
    split_ifs with h1 h2
    · simp only [Memory.wf, List.pairwise_cons, List.mem_cons]
      refine ⟨fun p hp => ?_, h.1, h.2⟩
      rcases hp with rfl | hp
      · exact h1
      · exact lt_trans h1 (h.1 p hp)
    · subst h2
      simpa only [Memory.wf, List.pairwise_cons] using h
    · simp only [Memory.wf, List.pairwise_cons]
      refine ⟨fun p hp => ?_, ih h.2⟩
      rcases Memory.mem_write hp with rfl | hp
      · show k < a
        omega
      · exact h.1 p hp

/-- A write below the capacity keeps every index below it. -/
theorem Memory.write_within {m : Memory} {a cap : Nat} (b : Byte) (h : m.within cap) (ha : a < cap) :
    (Memory.write m a b).within cap := by
  intro p hp
  rcases Memory.mem_write hp with rfl | hp
  · exact ha
  · exact h p hp

theorem Memory.writeBytes_wf {m : Memory} (a : Nat) (bs : List Byte) (h : m.wf) : (Memory.writeBytes m a bs).wf := by
  induction bs generalizing m a with
  | nil => exact h
  | cons b bs ih => exact ih (a + 1) (Memory.write_wf a b h)

theorem Memory.writeBytes_within {m : Memory} {a cap : Nat} (bs : List Byte) (h : m.within cap)
    (ha : a + bs.length ≤ cap) : (Memory.writeBytes m a bs).within cap := by
  induction bs generalizing m a with
  | nil => exact h
  | cons b bs ih =>
    simp only [List.length_cons] at ha
    exact ih (Memory.write_within b h (by omega)) (by omega)

/-- What BUF holds after a write of consecutive bytes: the bytes at their indices, the old contents elsewhere. -/
theorem Memory.read_writeBytes (m : Memory) (a c : Nat) (bs : List Byte) :
    (Memory.writeBytes m a bs).read c = if a ≤ c ∧ c < a + bs.length then bs[c - a]? else Memory.read m c := by
  induction bs generalizing m a with
  | nil => simp only [Memory.writeBytes, List.length_nil]; rw [if_neg (by omega)]
  | cons b bs ih =>
    simp only [Memory.writeBytes, ih, Memory.read_write, List.length_cons]
    by_cases h1 : c = a
    · subst h1
      simp
    · by_cases h2 : a + 1 ≤ c ∧ c < a + 1 + bs.length
      · have e : c - a = (c - (a + 1)) + 1 := by omega
        rw [if_pos h2, if_pos (by omega), e, List.getElem?_cons_succ]
      · rw [if_neg h2, if_neg h1, if_neg (by omega)]

/-! ### The little-endian word of bytes (R45, R46) -/

theorem leWord_nil : leWord [] = 0 := rfl

/-- The or of R45 and the sum of R46 agree: the byte and the shifted word share no bit. -/
theorem leWord_cons (b : Byte) (bs : List Byte) : leWord (b :: bs) = b.setWidth 64 + (leWord bs <<< 8) := by
  show b.setWidth 64 ||| (leWord bs <<< 8) = _
  rw [BitVec.add_eq_or_of_and_eq_zero]
  apply BitVec.eq_of_getLsbD_eq
  intro i hi
  simp only [BitVec.getLsbD_and, BitVec.getLsbD_setWidth, BitVec.getLsbD_shiftLeft]
  by_cases h : i < 8
  · simp [h]
  · simp [BitVec.getLsbD_of_ge b i (by omega)]

/-- R46: eight bytes as a sum. -/
theorem leWord_eight (b0 b1 b2 b3 b4 b5 b6 b7 : Byte) : leWord [b0, b1, b2, b3, b4, b5, b6, b7]
    = b0.setWidth 64 + (b1.setWidth 64 <<< 8) + (b2.setWidth 64 <<< 16) + (b3.setWidth 64 <<< 24)
      + (b4.setWidth 64 <<< 32) + (b5.setWidth 64 <<< 40) + (b6.setWidth 64 <<< 48) + (b7.setWidth 64 <<< 56) := by
  simp only [leWord_cons, leWord_nil]
  apply BitVec.eq_of_toNat_eq
  simp only [BitVec.toNat_add, BitVec.toNat_shiftLeft, BitVec.toNat_setWidth, Nat.shiftLeft_eq]
  have := b0.isLt; have := b1.isLt; have := b2.isLt; have := b3.isLt
  have := b4.isLt; have := b5.isLt; have := b6.isLt; have := b7.isLt
  omega

end Sys2Proof.Machine
end

