-- ==== Sys2Proof/Laws/Host.lean ====
section
/-! SUPPORT. What a host access and a step can do. -/

namespace Sys2Proof.Machine

theorem State.busy_eq (s : State) : s.busy = statusBusy s.status := rfl

/-- A host read records a BusError, or delivers a value; nothing else. -/
theorem hostRead_cases (s : State) (a size : Nat) :
    (accessOf s.cfg a size = none ∧ hostRead s a size = s.recordFault .busError)
      ∨ ∃ t, accessOf s.cfg a size = some t ∧ hostRead s a size = s.deliver (readAccess s t) := by
  unfold hostRead
  cases h : accessOf s.cfg a size with
  | none => exact .inl ⟨rfl, rfl⟩
  | some t => exact .inr ⟨t, rfl, rfl⟩

/-- The indices an access to BUF reaches are below P_BUF_BYTES (R41). -/
theorem accessOf_bounds {c : Config} {a size : Nat} {t : Access} (h : accessOf c a size = some t) :
    match t with
    | .reg r => a = regOffset r ∧ size = regSize r
    | .bufByte i => i < c.bufBytes ∧ a = bufBase + i ∧ size = 1
    | .bufWord i => i % 8 = 0 ∧ i + 8 ≤ c.bufBytes ∧ a = bufBase + i ∧ size = 8 := by
  unfold accessOf at h
  split at h
  · next r hr =>
    cases h
    have := List.find?_some hr
    simp only [Bool.and_eq_true, beq_iff_eq] at this
    exact ⟨this.1.symm, this.2.symm⟩
  · split_ifs at h with h1 h2 h3 <;> cases h
    · exact ⟨h2.2, by omega, h2.1⟩
    · exact ⟨h3.2.1, h3.2.2, by omega, h3.1⟩

/-- No register stands at an offset of BUF. -/
theorem windowRegs_find_buf (k size : Nat) :
    windowRegs.find? (fun r => regOffset r == 0x1000 + k && regSize r == size) = none := by
  rw [List.find?_eq_none]
  intro r _ h
  simp only [Bool.and_eq_true, beq_iff_eq] at h
  have : regOffset r ≤ 0x048 := by cases r <;> decide
  omega

/-- R41: a one-byte access of BUF[k]. -/
theorem accessOf_bufByte {c : Config} {k : Nat} (h : k < c.bufBytes) :
    accessOf c (0x1000 + k) 1 = some (.bufByte k) := by
  unfold accessOf
  rw [windowRegs_find_buf]
  simp only [bufBase, Nat.add_sub_cancel_left]
  rw [if_neg (by omega), if_pos ⟨trivial, h⟩]

/-- R41: an aligned eight-byte access of BUF[k..k+8). -/
theorem accessOf_bufWord {c : Config} {k : Nat} (h : k % 8 = 0) (h' : k + 8 ≤ c.bufBytes) :
    accessOf c (0x1000 + k) 8 = some (.bufWord k) := by
  unfold accessOf
  rw [windowRegs_find_buf]
  simp only [bufBase, Nat.add_sub_cancel_left]
  rw [if_neg (by omega), if_neg (by omega), if_pos ⟨trivial, h, h'⟩]

/-- A write that R154 guards records BusyWrite while BUSY = 1 and is performed while BUSY = 0. -/
theorem unlessBusy_cases (s w : State) :
    (s.busy = true ∧ s.unlessBusy w = s.recordFault .busyWrite) ∨ (s.busy = false ∧ s.unlessBusy w = w) := by
  unfold State.unlessBusy
  cases h : s.busy
  · exact .inr ⟨rfl, rfl⟩
  · exact .inl ⟨rfl, rfl⟩

/-- What one host write can do: record one fault; nothing, on a read-only register; while BUSY = 0, issue a command,
store one input register, or store to BUF below P_BUF_BYTES. -/
theorem hostWrite_cases (s : State) (a size : Nat) (v : Word) :
    (∃ f, hostWrite s a size v = s.recordFault f) ∨ hostWrite s a size v = s ∨
    (s.busy = false ∧
      (hostWrite s a size v = s.issue (v.setWidth 32)
        ∨ hostWrite s a size v = s.setLen v ∨ hostWrite s a size v = s.setOff v
        ∨ hostWrite s a size v = s.setOpa v ∨ hostWrite s a size v = s.setOpb v
        ∨ hostWrite s a size v = s.setOpm v
        ∨ ∃ i bs, i + bs.length ≤ s.cfg.bufBytes ∧ hostWrite s a size v = s.setBuf (s.buf.writeBytes i bs))) := by
  unfold hostWrite
  cases h : accessOf s.cfg a size with
  | none => exact .inl ⟨_, rfl⟩
  | some t =>
    have hb := accessOf_bounds h
    have guarded : ∀ w, writeAccess s v t = s.unlessBusy w →
        (∃ f, writeAccess s v t = s.recordFault f) ∨ (s.busy = false ∧ writeAccess s v t = w) := by
      intro w e
      rcases unlessBusy_cases s w with ⟨-, hw⟩ | ⟨hs, hw⟩
      · exact .inl ⟨_, e.trans hw⟩
      · exact .inr ⟨hs, e.trans hw⟩
    cases t with
    | reg r =>
      cases r
      case cmd => rcases guarded _ rfl with g | ⟨hs, g⟩ <;> tauto
      case len => rcases guarded _ rfl with g | ⟨hs, g⟩ <;> tauto
      case off => rcases guarded _ rfl with g | ⟨hs, g⟩ <;> tauto
      case opa => rcases guarded _ rfl with g | ⟨hs, g⟩ <;> tauto
      case opb => rcases guarded _ rfl with g | ⟨hs, g⟩ <;> tauto
      case opm => rcases guarded _ rfl with g | ⟨hs, g⟩ <;> tauto
      all_goals exact .inr (.inl rfl)
    | bufByte i =>
      rcases guarded (s.setBuf (s.buf.writeBytes i [byteOf v 0])) rfl with g | ⟨hs, g⟩
      · exact .inl g
      · have : ∃ j bs, j + bs.length ≤ s.cfg.bufBytes ∧
            writeAccess s v (.bufByte i) = s.setBuf (s.buf.writeBytes j bs) :=
          ⟨i, [byteOf v 0], by simpa using hb.1, g⟩
        tauto
    | bufWord i =>
      rcases guarded (s.setBuf (s.buf.writeBytes i (bytesOf v))) rfl with g | ⟨hs, g⟩
      · exact .inl g
      · have : ∃ j bs, j + bs.length ≤ s.cfg.bufBytes ∧
            writeAccess s v (.bufWord i) = s.setBuf (s.buf.writeBytes j bs) :=
          ⟨i, bytesOf v, by simpa [bytesOf] using hb.2.1, g⟩
        tauto

/-- R12: what a step is. -/
theorem step_eq (s : State) :
    (∃ w left, nextMove s = .core w left ∧ s.pending = some w ∧ step s = coreStep w (s.withTurns left))
      ∨ (∃ stmt left, nextMove s = .host stmt left ∧ step s = .next (hostStep (s.withTurns left) stmt))
      ∨ (∃ left, nextMove s = .idle left ∧ step s = .next (s.withTurns left)) := by
  have hc : ∀ l w left, coreMove s l = .core w left → s.pending = some w := by
    intro l w left h
    unfold coreMove at h
    split at h <;> cases h
    assumption
  unfold step
  cases h : nextMove s with
  | core w left =>
    refine .inl ⟨w, left, rfl, ?_, rfl⟩
    unfold nextMove at h
    split at h
    · exact hc _ _ _ h
    · exact hc _ _ _ h
    · split_ifs at h; exact hc _ _ _ h
    all_goals cases h
  | host stmt left => exact .inr (.inl ⟨stmt, left, rfl, rfl⟩)
  | idle left => exact .inr (.inr ⟨left, rfl, rfl⟩)

/-- A run of one step more than `k` is a run of `k` from the next state. -/
theorem core_run_succ {k : Nat} {s t : State} (h : step s = .next t) :
    Sys2Proof.core.run (k + 1) s = Sys2Proof.core.run k t := by
  have e : Sys2Proof.core.step s = .next t := h
  simp only [Host.Core.run, e]

end Sys2Proof.Machine
end

