-- ==== Sys2Proof/Laws/PerInstr.lean ====
section
/-! SUPPORT. Statements made per command: the command word of each command is legal, holds its OPCODE with RSVD = 0, and
is no other command's (30_encoding.md R60 to R62). -/

namespace Sys2Proof.Laws.EncodesLegalWord

/-- The word of `i` is legal, its reserved field is clear, and no other command has it. -/
def Statement (i : Instr) : Prop :=
  commandWordWf (encode i) = true ∧ rsvdField (encode i) = 0 ∧ opcodeField (encode i) = opcodeOf i
    ∧ ∀ j, encode j = encode i → j = i

theorem rotr : Statement .rotr := ⟨by decide, by decide, by decide, fun j => by cases j <;> decide⟩
theorem shiftmix : Statement .shiftmix := ⟨by decide, by decide, by decide, fun j => by cases j <;> decide⟩
theorem hashlen16 : Statement .hashlen16 := ⟨by decide, by decide, by decide, fun j => by cases j <;> decide⟩
theorem hash128to64 : Statement .hash128to64 := ⟨by decide, by decide, by decide, fun j => by cases j <;> decide⟩
theorem hash64 : Statement .hash64 := ⟨by decide, by decide, by decide, fun j => by cases j <;> decide⟩
theorem hashlen0to16 : Statement .hashlen0to16 := ⟨by decide, by decide, by decide, fun j => by cases j <;> decide⟩
theorem hashlen17to32 : Statement .hashlen17to32 := ⟨by decide, by decide, by decide, fun j => by cases j <;> decide⟩
theorem hashlen33to64 : Statement .hashlen33to64 := ⟨by decide, by decide, by decide, fun j => by cases j <;> decide⟩
theorem hashlong : Statement .hashlong := ⟨by decide, by decide, by decide, fun j => by cases j <;> decide⟩
theorem weakhash32 : Statement .weakhash32 := ⟨by decide, by decide, by decide, fun j => by cases j <;> decide⟩
theorem bucket : Statement .bucket := ⟨by decide, by decide, by decide, fun j => by cases j <;> decide⟩
theorem hashbucket : Statement .hashbucket := ⟨by decide, by decide, by decide, fun j => by cases j <;> decide⟩

end Sys2Proof.Laws.EncodesLegalWord
end

