-- ==== Sys2Proof/Tests/Slice0.lean ====
section
/-! SUPPORT. The model's own tests. Expected results are the words of 30_encoding.md and the vectors of
95_test_vectors.md; the witnesses show, for every statement with hypotheses, states and operands that meet them. -/

namespace Sys2Proof.Tests

open Sys2Proof Sys2Proof.Machine

/-! ### States -/

/-- The bytes BUF[i] = i mod 256 for o <= i < o + n: `pat(n)` of 95_test_vectors.md is `pat 0 n`. -/
def pat : Nat → Nat → Memory
  | _, 0 => []
  | o, n + 1 => (o, BitVec.ofNat 8 o) :: pat (o + 1) n

theorem pat_read (o n a : Nat) (h : o ≤ a) (h' : a < o + n) : (pat o n).read a = some (BitVec.ofNat 8 a) := by
  induction n generalizing o with
  | zero => omega
  | succ n ih =>
    simp only [pat, Memory.read]
    split_ifs with e
    · rw [e]
    · exact ih (o + 1) (by omega) (by omega)

/-- The first `n` bytes of BUF hold `pat(n)` and LEN = n. -/
def bufState (n : Nat) : State := { State.reset with len := wordOfNat n, buf := pat 0 n }

/-- The operand registers hold u, v and m. -/
def wordState (u v m : Word) : State := { State.reset with opa := u, opb := v, opm := m }

/-- The word `w` is pending, and `turns` are still to come. -/
def busyState (w : Word32) (turns : List Turn) : State :=
  { State.reset with pending := some w, status := statusIssued, turns := turns }

/-- What the host can read of a completed command: STATUS, RES0 and RES1. -/
def results : Host.Outcome State Fault Refusal → Option (Word32 × Word × Word)
  | .next t => some (t.status, t.res0, t.res1)
  | .fault _ => none
  | .refused _ => none

theorem bufState_written (n : Nat) (hn : n < 2 ^ 64) : (bufState n).InputWritten 0 (bufState n).len.toNat := by
  intro a h1 h2
  refine ⟨_, pat_read 0 n a h1 ?_⟩
  have : (bufState n).len.toNat = n := by
    simp only [bufState, wordOfNat, BitVec.toNat_ofNat]; omega
  omega

/-! ### Well-formedness: each check refuses an ill-formed word (30_encoding.md R62) -/

theorem test_wf_reserved_not_zero : commandWordWf 0x00000110#32 = false ∧ commandWordWf 0x80000001#32 = false := by decide
theorem test_wf_opcode_0x00 : commandWordWf 0x00000000#32 = false := by decide
theorem test_wf_opcodes_0x05_to_0x0F : commandWordWf 0x05#32 = false ∧ commandWordWf 0x0F#32 = false := by decide
theorem test_wf_opcodes_0x15_to_0x1F : commandWordWf 0x15#32 = false ∧ commandWordWf 0x1F#32 = false := by decide
theorem test_wf_opcodes_0x21_to_0x2F : commandWordWf 0x21#32 = false ∧ commandWordWf 0x2F#32 = false := by decide
theorem test_wf_opcodes_0x32_to_0xFF : commandWordWf 0x32#32 = false ∧ commandWordWf 0xFF#32 = false := by decide
theorem test_wf_legal_words : commandWordWf 0x04#32 = true ∧ commandWordWf 0x10#32 = true ∧ commandWordWf 0x14#32 = true
    ∧ commandWordWf 0x20#32 = true ∧ commandWordWf 0x30#32 = true ∧ commandWordWf 0x31#32 = true := by decide

/-! ### Decoding: each command word bit by bit, as in R60 (24 bits RSVD, 8 bits OPCODE) and R61 -/

theorem test_decode_rotr : decode 0b00000000000000000000000000000001#32 = .ok .rotr := by decide
theorem test_decode_shiftmix : decode 0b00000000000000000000000000000010#32 = .ok .shiftmix := by decide
theorem test_decode_hashlen16 : decode 0b00000000000000000000000000000011#32 = .ok .hashlen16 := by decide
theorem test_decode_hash128to64 : decode 0b00000000000000000000000000000100#32 = .ok .hash128to64 := by decide
theorem test_decode_hash64 : decode 0b00000000000000000000000000010000#32 = .ok .hash64 := by decide
theorem test_decode_hashlen0to16 : decode 0b00000000000000000000000000010001#32 = .ok .hashlen0to16 := by decide
theorem test_decode_hashlen17to32 : decode 0b00000000000000000000000000010010#32 = .ok .hashlen17to32 := by decide
theorem test_decode_hashlen33to64 : decode 0b00000000000000000000000000010011#32 = .ok .hashlen33to64 := by decide
theorem test_decode_hashlong : decode 0b00000000000000000000000000010100#32 = .ok .hashlong := by decide
theorem test_decode_weakhash32 : decode 0b00000000000000000000000000100000#32 = .ok .weakhash32 := by decide
theorem test_decode_bucket : decode 0b00000000000000000000000000110000#32 = .ok .bucket := by decide
theorem test_decode_hashbucket : decode 0b00000000000000000000000000110001#32 = .ok .hashbucket := by decide
theorem test_decode_bytes_too_short : decodeBytes [0x01, 0x00, 0x00] = .error .tooShort := by decide
theorem test_decode_bytes_little_endian : decodeBytes [0x31, 0x00, 0x00, 0x00, 0xFF] = .ok (.hashbucket, [0xFF])
    ∧ decodeBytes [0x00, 0x00, 0x00, 0x31] = .error .reservedNotZero := by decide
theorem test_decodeTableWord : decodeTableWord 32 0x31 = some .hashbucket ∧ decodeTableWord 32 0x131 = none := by decide

/-! ### Reset and the first command -/

theorem test_reset_memory_canonical : State.reset.buf.wf := by decide
theorem test_reset_runs_a_placed_word :
    results (step (State.reset.withFetchWord 32 0x10)) = some (0x2#32, 0x9AE16A3B2F90404F#64, 0#64) := by decide
theorem test_write_keeps_canonical_form :
    ((pat 4 2).write 3 0x33 = [(3, 0x33), (4, 0x04), (5, 0x05)]) ∧ ((pat 4 2).write 5 0x33 = [(4, 0x04), (5, 0x33)]) := by
  decide

/-! ### Vectors of 95_test_vectors.md section 2 -/

/-- §2.1, the shift reduced modulo 64. -/
theorem test_rotr_68 : results (exec .rotr (wordState 0x0123456789ABCDEF 68 0))
    = some (0x2#32, 0xF0123456789ABCDE#64, 0#64) := by decide
/-- §2.1, all 64 bits of OPB. -/
theorem test_rotr_all_ones : results (exec .rotr (wordState 0x0123456789ABCDEF 0xFFFFFFFFFFFFFFFF 0))
    = some (0x2#32, 0x02468ACF13579BDE#64, 0#64) := by decide
/-- §2.2, the logical shift. -/
theorem test_shiftmix_logical : results (exec .shiftmix (wordState 0x8000000000000000 0 0))
    = some (0x2#32, 0x8000000000010000#64, 0#64) := by decide
/-- §2.2, bit 47. -/
theorem test_shiftmix_bit_47 : results (exec .shiftmix (wordState 0x0000800000000000 0 0))
    = some (0x2#32, 0x0000800000000001#64, 0#64) := by decide
/-- §2.3, not symmetric. -/
theorem test_hashlen16_v : results (exec .hashlen16 (wordState 0 1 0x9AE16A3B2F90404F))
    = some (0x2#32, 0xDC111975C8F030AE#64, 0#64) := by decide
/-- §2.3 -/
theorem test_hashlen16_n16 : results (exec .hashlen16 (wordState 1 2 0x9AE16A3B2F90406F))
    = some (0x2#32, 0xD5CEF07D51B09245#64, 0#64) := by decide
/-- §2.3 -/
theorem test_hash128to64_u : results (exec .hash128to64 (wordState 0xFFFFFFFFFFFFFFFF 0 7))
    = some (0x2#32, 0x7FD30145028FD3F2#64, 0#64) := by decide
/-- §2.3 -/
theorem test_hash128to64_v : results (exec .hash128to64 (wordState 0 1 7))
    = some (0x2#32, 0xF4FF80EC63C103D4#64, 0#64) := by decide
/-- §2.4 -/
theorem test_hash64_7 : results (exec .hash64 (bufState 7)) = some (0x2#32, 0xA2E0BFF20DB0A6A1#64, 0#64) := by decide
/-- §2.4 -/
theorem test_hash64_129 : results (exec .hash64 (bufState 129)) = some (0x2#32, 0xCE8BA3741121083E#64, 0#64) := by decide
/-- §2.4 -/
theorem test_hashlen0to16_16 : results (exec .hashlen0to16 (bufState 16))
    = some (0x2#32, 0x0EFD25A0A34156D4#64, 0#64) := by decide
/-- §2.4, LEN_BAND. -/
theorem test_hashlen0to16_17 : results (exec .hashlen0to16 (bufState 17)) = some (0x306#32, 0#64, 0#64) := by decide
/-- §2.4 -/
theorem test_hashlen17to32_32 : results (exec .hashlen17to32 (bufState 32))
    = some (0x2#32, 0x1A9D8199972CDF49#64, 0#64) := by decide
/-- §2.4, LEN_BAND. -/
theorem test_hashlen17to32_16 : results (exec .hashlen17to32 (bufState 16)) = some (0x306#32, 0#64, 0#64) := by decide
/-- §2.4, A33_MUL = K1. -/
theorem test_hashlen33to64_k1 : results (exec .hashlen33to64 (bufState 64))
    = some (0x2#32, 0x8B1073C62640BE16#64, 0#64) := by decide
/-- §2.4, A33_MUL = K2. -/
theorem test_hashlen33to64_k2 :
    results (exec .hashlen33to64 { bufState 64 with cfg := { Config.default with a33 := .k2 } })
      = some (0x2#32, 0xF58504BB53DECC4B#64, 0#64) := by decide
/-- §2.4, an aligned tail. -/
theorem test_hashlong_128 : results (exec .hashlong (bufState 128)) = some (0x2#32, 0x1C484C95F0EA5DD3#64, 0#64) := by
  decide
/-- §2.4, LEN_CAPACITY before any band check. -/
theorem test_hashlong_257 : results (exec .hashlong { bufState 0 with len := 257 }) = some (0x206#32, 0#64, 0#64) := by
  decide
/-- §2.5 -/
theorem test_weakhash32_16 :
    results (exec .weakhash32 { bufState 64 with off := 16, opa := BitVec.allOnes 64, opb := BitVec.allOnes 64 })
      = some (0x2#32, 0x8C8884807C78746F#64, 0x6E2CDC2AE999E8A5#64) := by decide
/-- §2.5, OFF near 2^64. -/
theorem test_weakhash32_no_wrap : results (exec .weakhash32 { bufState 64 with off := 0xFFFFFFFFFFFFFFF0 })
    = some (0x406#32, 0#64, 0#64) := by decide
/-- §2.7, the signed minimum. -/
theorem test_bucket_min : results (exec .bucket (wordState 0x8000000000000000 0 0)) = some (0x2#32, 8#64, 0#64) := by
  decide
/-- §2.7, K0. -/
theorem test_bucket_k0 : results (exec .bucket (wordState 0xC3A5C85C97CB3127 0 0)) = some (0x2#32, 17#64, 0#64) := by
  decide
/-- §2.7, the empty input. -/
theorem test_hashbucket_empty : results (exec .hashbucket (bufState 0))
    = some (0x2#32, 53#64, 0x9AE16A3B2F90404F#64) := by decide
/-- An unwritten input byte: success with UnwrittenRead recorded (R48, R153). -/
theorem test_hashbucket_unwritten :
    ∃ t, exec .hashbucket { bufState 1 with len := 2 } = .next t ∧ t.status = 0x2#32 ∧ t.faults.unwrittenRead = true :=
  ⟨_, rfl, rfl, rfl⟩

/-! ### Witnesses: states and operands that meet the hypotheses of each statement, at the boundaries of its clauses -/

theorem test_witness_DecodeOfEncodeIsTheCommand : Instr.wf .hashbucket = true := rfl

theorem test_witness_DecodingIsTotalAndExact : (0x31#32 &&& 0xFFFFFFFF#32 = encode .hashbucket) ∧ (0x01#32 &&& 0xFFFFFFFF#32 = encode .rotr) := by
  decide

theorem test_witness_StepRunsTheDecodedCommand : decode 0x01#32 = .ok .rotr ∧ State.reset.pending = none
    ∧ ((busyState 0x01 []).pending = some 0x01#32 ∧ (busyState 0x01 []).turns = [])
    ∧ ((busyState 0x01 [.core]).pending = some 0x01#32 ∧ (busyState 0x01 [.core]).turns = .core :: [])
    ∧ ((busyState 0x01 [.host .wait]).pending = some 0x01#32 ∧ (busyState 0x01 [.host .wait]).turns = .host .wait :: []
      ∧ (busyState 0x01 [.host .wait]).status.getLsbD 0 = true) := by decide

theorem test_witness_IllegalWordCompletesWithError : commandWordWf 0x00#32 = false ∧ commandWordWf 0x05#32 = false
    ∧ commandWordWf 0x0F#32 = false ∧ commandWordWf 0x32#32 = false ∧ commandWordWf 0x101#32 = false
    ∧ ((busyState 0x00 []).pending = some 0x00#32 ∧ (busyState 0x00 []).turns = [])
    ∧ ((busyState 0x00 [.core]).pending = some 0x00#32 ∧ (busyState 0x00 [.core]).turns = .core :: []) := by decide

/-- An idle block with the turns `l`. -/
def idleState (l : List Turn) : State := { State.reset with turns := l }

theorem test_witness_StepPerformsTheHostsTurn :
    (idleState [.host (.memRead 0x004 4)]).turns = .host (.memRead 0x004 4) :: []
    ∧ (idleState [.host (.memWrite 0x000 4 1)]).turns = .host (.memWrite 0x000 4 1) :: []
    ∧ ((idleState [.host .wait]).turns = .host .wait :: [] ∧ (idleState [.host .wait]).status.getLsbD 0 = false)
    ∧ ((idleState [.core]).turns = .core :: [] ∧ (idleState [.core]).pending = none)
    ∧ ((idleState []).turns = [] ∧ (idleState []).pending = none) := by decide

theorem test_witness_ResetGivesTheResetValues :
    (busyState 0x10 [.host .reset]).turns = .host .reset :: [] ∧ (busyState 0x10 [.host .reset]).pending = some 0x10#32 := by
  decide

theorem test_witness_StepKeepsTheInvariant :
    (busyState 0x10 []).Inv ∧ ∃ t, step (busyState 0x10 []) = .next t :=
  ⟨⟨by decide, by decide, by decide, by decide⟩, _, rfl⟩

theorem test_witness_FaultsAreNeverRemoved :
    ∃ t, step { busyState 0x10 [] with faults := FaultSet.empty.record .busyWrite } = .next t
      ∧ (FaultSet.empty.record .busyWrite).has .busyWrite = true := ⟨_, rfl, rfl⟩

/-- A configuration of the largest capacity that BUFCAP holds exactly, and the largest modulus. -/
def wideConfig : Config :=
  { bufBytes := 2 ^ 64 - 1, buckets := 2 ^ 64 - 1, a33 := .k2, base := 0x40000000,
    bufBytes_pos := by decide, buckets_pos := by decide, buckets_lt := by decide }

theorem test_witness_ConfigurationReadsBack : (State.powerOn wideConfig).cfg.bufBytes < 2 ^ 64
    ∧ ∃ t, step (idleState [.host .reset]) = .next t := ⟨by decide, _, rfl⟩

theorem test_witness_RotateRightMovesBits : (0 : Nat) < 64 ∧ 63 < 64 := by decide

theorem test_witness_RotrCommand : (0#64).toNat % 64 = 0 ∧ (64#64).toNat % 64 = 0
    ∧ (0xFFFFFFFFFFFFFFC0#64).toNat % 64 = 0 := by decide

theorem test_witness_ShiftmixCommand : (0x7FFFFFFFFFFF#64).toNat < 2 ^ 47 := by decide

/-- The input `pat(n)`. -/
def patInput (n : Nat) : Input := { buf := pat 0 n, len := n }

theorem patInput_written (n : Nat) : ∀ a, a < (patInput n).len → ∃ b, (patInput n).buf.read a = some b :=
  fun a h => ⟨_, pat_read 0 n a (by omega) (by simpa [patInput] using h)⟩

theorem test_witness_CoreReadsAreLittleEndian :
    (7 < (patInput 8).len ∧ (patInput 8).buf.read 7 = some 7)
    ∧ (4 + 4 ≤ (patInput 8).len ∧ (patInput 8).buf.read 4 = some 4 ∧ (patInput 8).buf.read 7 = some 7)
    ∧ (0 + 8 ≤ (patInput 8).len ∧ ∀ j, j < 8 → (patInput 8).buf.read j = some (BitVec.ofNat 8 j)) := by decide

theorem test_witness_Band0to16Kernel :
    ((patInput 16).len ≤ 16 ∧ ∀ a, a < (patInput 16).len → ∃ b, (patInput 16).buf.read a = some b)
    ∧ (∃ a, a < 16 ∧ (pat 0 15).read a = none)
    ∧ (8 ≤ (patInput 8).len ∧ (patInput 8).len ≤ 16 ∧ read64 (patInput 8) 0 = .ok 0x0706050403020100#64
        ∧ read64 (patInput 8) ((patInput 8).len - 8) = .ok 0x0706050403020100#64)
    ∧ (4 ≤ (patInput 7).len ∧ (patInput 7).len ≤ 7 ∧ read32 (patInput 7) 0 = .ok 0x03020100#64
        ∧ read32 (patInput 7) ((patInput 7).len - 4) = .ok 0x06050403#64)
    ∧ (1 ≤ (patInput 3).len ∧ (patInput 3).len ≤ 3 ∧ (patInput 3).buf.read 0 = some 0
        ∧ (patInput 3).buf.read ((patInput 3).len / 2) = some 1 ∧ (patInput 3).buf.read ((patInput 3).len - 1) = some 2)
    ∧ (patInput 0).len = 0 :=
  ⟨⟨by decide, patInput_written 16⟩, ⟨15, by decide, by decide⟩, by decide, by decide, by decide, rfl⟩

theorem test_witness_Band17to32Kernel :
    (17 ≤ (patInput 17).len ∧ (patInput 32).len ≤ 32 ∧ ∀ a, a < (patInput 32).len → ∃ b, (patInput 32).buf.read a = some b)
    ∧ (∃ a, a < 17 ∧ (pat 0 16).read a = none)
    ∧ (∃ r0 b rc rd, read64 (patInput 17) 0 = .ok r0 ∧ read64 (patInput 17) 8 = .ok b
        ∧ read64 (patInput 17) ((patInput 17).len - 8) = .ok rc ∧ read64 (patInput 17) ((patInput 17).len - 16) = .ok rd) :=
  ⟨⟨by decide, by decide, patInput_written 32⟩, ⟨16, by decide, by decide⟩, _, _, _, _, rfl, rfl, rfl, rfl⟩

theorem test_witness_Band33to64Kernel :
    (33 ≤ (patInput 33).len ∧ (patInput 64).len ≤ 64 ∧ ∀ a, a < (patInput 64).len → ∃ b, (patInput 64).buf.read a = some b)
    ∧ (∃ a, a < 64 ∧ (pat 0 63).read a = none)
    ∧ (∃ r0 b rc rd re f rg rh, read64 (patInput 33) 0 = .ok r0 ∧ read64 (patInput 33) 8 = .ok b
        ∧ read64 (patInput 33) ((patInput 33).len - 8) = .ok rc ∧ read64 (patInput 33) ((patInput 33).len - 16) = .ok rd
        ∧ read64 (patInput 33) 16 = .ok re ∧ read64 (patInput 33) 24 = .ok f
        ∧ read64 (patInput 33) ((patInput 33).len - 32) = .ok rg ∧ read64 (patInput 33) ((patInput 33).len - 24) = .ok rh) :=
  ⟨⟨by decide, by decide, patInput_written 64⟩, ⟨63, by decide, by decide⟩, _, _, _, _, _, _, _, _,
    rfl, rfl, rfl, rfl, rfl, rfl, rfl, rfl⟩

theorem test_witness_DispatchOnLength : (patInput 16).len ≤ 16 ∧ 17 ≤ (patInput 17).len ∧ (patInput 32).len ≤ 32
    ∧ 33 ≤ (patInput 33).len ∧ (patInput 64).len ≤ 64 ∧ 64 < (patInput 65).len ∧ (patInput 0).len = 0
    ∧ (Except.ok 1#64 : Except ReadFail Word) = .ok 1#64 := by decide

theorem test_witness_WeakHashKernel :
    (32 + 32 ≤ (patInput 64).len ∧ ∀ c, 32 ≤ c → c < 32 + 32 → ∃ v, (patInput 64).buf.read c = some v)
    ∧ (∃ c, 32 ≤ c ∧ c < 32 + 32 ∧ (pat 0 63).read c = none)
    ∧ (∃ w x y z, read64 (patInput 64) 32 = .ok w ∧ read64 (patInput 64) (32 + 8) = .ok x
        ∧ read64 (patInput 64) (32 + 16) = .ok y ∧ read64 (patInput 64) (32 + 24) = .ok z) :=
  ⟨⟨by decide, fun c _ h => patInput_written 64 c h⟩, ⟨63, by decide, by decide, by decide⟩, _, _, _, _, rfl, rfl, rfl, rfl⟩

theorem test_witness_StrideUpdate :
    (1 + 64 ≤ (patInput 65).len ∧ ∀ c, 1 ≤ c → c < 1 + 64 → ∃ v, (patInput 65).buf.read c = some v)
    ∧ (∃ c, 1 ≤ c ∧ c < 1 + 64 ∧ (pat 0 64).read c = none)
    ∧ (∃ q0 q1 q2 q3 q4 q5 q6 q7, read64 (patInput 65) 1 = .ok q0 ∧ read64 (patInput 65) (1 + 8) = .ok q1
        ∧ read64 (patInput 65) (1 + 16) = .ok q2 ∧ read64 (patInput 65) (1 + 24) = .ok q3
        ∧ read64 (patInput 65) (1 + 32) = .ok q4 ∧ read64 (patInput 65) (1 + 40) = .ok q5
        ∧ read64 (patInput 65) (1 + 48) = .ok q6 ∧ read64 (patInput 65) (1 + 56) = .ok q7) :=
  ⟨⟨by decide, fun c _ h => patInput_written 65 c h⟩, ⟨64, by decide, by decide, by decide⟩, _, _, _, _, _, _, _, _,
    rfl, rfl, rfl, rfl, rfl, rfl, rfl, rfl⟩

theorem test_witness_TailPreparation : 65 ≤ (patInput 65).len := by decide

/-- KernelState before and after the loop stride of `pat(65)`, and after its tail pass (95_test_vectors.md §2.6). -/
def traceInit : KernelState :=
  { x := 0x0858A1BE0FA659FF, y := 0x226BB95B4E64B6D4, z := 0x134A747F856D0526, v0 := 0, v1 := 0, w0 := 0, w1 := 0 }
def traceLoop : KernelState :=
  { x := 0xD1DD0DD1DDB0B84D, y := 0xD989BAF02A075E69, z := 0xDE0411F1CB979833, v0 := 0x4C4844403C383430,
    v1 := 0x16DA6F06F62562EF, w0 := 0x9EA5D2929A696CFD, w1 := 0x827A1730472A83AF }
def traceTail : KernelState :=
  { x := 0x040E5F15C53DABF3, y := 0x932A2B6001ACF1D6, z := 0xF12B26152ABC0C42, v0 := 0x0A14AF1B5D5B02CB,
    v1 := 0xF1BC6BC019240AB9, w0 := 0x57553F0ACD24E856, w1 := 0xF007C7D7933DAF37 }

/-- §2.6, n = 65. -/
theorem test_stride_pat65 : read64 (patInput 65) 0 = .ok 0x0706050403020100#64
    ∧ kernelInit 0x0706050403020100#64 = traceInit
    ∧ stride (patInput 65) (64 * 0) 0xB492B66FBE98F273#64 false traceInit = .ok traceLoop
    ∧ stride (patInput 65) ((patInput 65).len - 64) (tailMul traceLoop) true (tailPrepare (patInput 65).len traceLoop)
        = .ok traceTail := by decide

theorem test_witness_LongKernelRuns :
    (65 ≤ (patInput 65).len ∧ ∀ a, a < (patInput 65).len → ∃ b, (patInput 65).buf.read a = some b)
    ∧ (∃ a, a < 65 ∧ (pat 0 64).read a = none) ∧ 128 % 64 = 0
    ∧ (read64 (patInput 65) 0 = .ok 0x0706050403020100#64
      ∧ [traceInit, traceLoop].length = ((patInput 65).len - 1) / 64 + 1
      ∧ [traceInit, traceLoop][0]? = some (kernelInit 0x0706050403020100#64)
      ∧ (∀ (j : Nat) (a b : KernelState), [traceInit, traceLoop][j]? = some a → [traceInit, traceLoop][j + 1]? = some b →
          stride (patInput 65) (64 * j) 0xB492B66FBE98F273#64 false a = .ok b)
      ∧ [traceInit, traceLoop].getLast? = some traceLoop
      ∧ stride (patInput 65) ((patInput 65).len - 64) (tailMul traceLoop) true (tailPrepare (patInput 65).len traceLoop)
          = .ok traceTail) := by
  refine ⟨⟨by decide, patInput_written 65⟩, ⟨64, by decide, by decide⟩, by decide, test_stride_pat65.1, by decide,
    by rw [test_stride_pat65.2.1]; rfl, fun j a b ha hb => ?_, rfl, test_stride_pat65.2.2.2⟩
  match j with
  | 0 => cases ha; cases hb; exact test_stride_pat65.2.2.1
  | j + 1 => cases hb

/-! Buffer commands: LEN above the capacity, LEN outside the band on each side, written input at each end of the band,
an unwritten byte, and the worked example. -/

/-- LEN = n with only the first `k` bytes written. -/
def partState (k n : Nat) : State := { bufState k with len := wordOfNat n }

theorem partState_unwritten (k n : Nat) (h : k < n) (hn : n < 2 ^ 64) (hk : (pat 0 k).read k = none) :
    ¬ (partState k n).InputWritten 0 (partState k n).len.toNat := by
  intro w
  have e : (partState k n).len.toNat = n := by
    simp only [partState, wordOfNat, BitVec.toNat_ofNat]; omega
  obtain ⟨b, hb⟩ := w k (by omega) (by omega)
  have : (pat 0 k).read k = some b := hb
  rw [hk] at this; cases this

/-- BUF holds the bytes `bs` and LEN counts them. -/
def stringState (bs : List Byte) : State :=
  { State.reset with len := wordOfNat bs.length, buf := bs.zipIdx.map (fun p => (p.2, p.1)) }

/-- A written input meets the premise of the equalities between two runs, for every command that hashes it. -/
theorem bufState_reads (i : Instr) (hi : i ≠ .weakhash32) (n : Nat) (hn : n < 2 ^ 64) : readsWrittenInput i (bufState n) :=
  ⟨fun _ _ _ => bufState_written n hn, fun h => absurd h hi⟩

/-- So does a LEN above the capacity, whatever BUF holds. -/
theorem partState_reads (i : Instr) (h : (partState 0 257).cfg.bufBytes < (partState 0 257).len.toNat) :
    readsWrittenInput i (partState 0 257) :=
  ⟨fun _ hc => absurd hc (by omega), fun _ hc => absurd hc (by omega)⟩

theorem test_witness_readsWrittenInput :
    (readsWrittenInput .hash64 (bufState 256) ∧ readsWrittenInput .hashlen0to16 (bufState 16)
      ∧ readsWrittenInput .hashlen17to32 (bufState 17) ∧ readsWrittenInput .hashlen17to32 (bufState 32)
      ∧ readsWrittenInput .hashlen33to64 (bufState 33) ∧ readsWrittenInput .hashlen33to64 (bufState 64)
      ∧ readsWrittenInput .hashlong (bufState 65) ∧ readsWrittenInput .hashbucket (bufState 256))
    ∧ readsWrittenInput .hash64 (partState 0 257) ∧ ¬ readsWrittenInput .hash64 (partState 0 1) :=
  ⟨⟨bufState_reads _ (by decide) 256 (by decide), bufState_reads _ (by decide) 16 (by decide),
      bufState_reads _ (by decide) 17 (by decide), bufState_reads _ (by decide) 32 (by decide),
      bufState_reads _ (by decide) 33 (by decide), bufState_reads _ (by decide) 64 (by decide),
      bufState_reads _ (by decide) 65 (by decide), bufState_reads _ (by decide) 256 (by decide)⟩,
    partState_reads _ (by decide),
    fun h => partState_unwritten 0 1 (by decide) (by decide) rfl (h.1 rfl (by decide) rfl)⟩

theorem test_witness_Hash64Command :
    (partState 0 257).len.toNat > (partState 0 257).cfg.bufBytes
    ∧ ((bufState 256).len.toNat ≤ (bufState 256).cfg.bufBytes
      ∧ (bufState 256).InputWritten 0 (bufState 256).len.toNat)
    ∧ ((partState 0 1).len.toNat ≤ (partState 0 1).cfg.bufBytes
      ∧ ¬ (partState 0 1).InputWritten 0 (partState 0 1).len.toNat)
    ∧ (bufState 0).len = 0
    ∧ ((bufState 16).len.toNat ≤ 16 ∧ 17 ≤ (bufState 17).len.toNat ∧ (bufState 32).len.toNat ≤ 32
      ∧ 33 ≤ (bufState 33).len.toNat ∧ (bufState 64).len.toNat ≤ 64 ∧ 65 ≤ (bufState 65).len.toNat)
    ∧ readsWrittenInput .hash64 (bufState 16) ∧ readsWrittenInput .hash64 (bufState 65)
    ∧ ((∀ a, a < (bufState 1).len.toNat → (pat 0 2).read a = (bufState 1).buf.read a)
      ∧ readsWrittenInput .hash64 (bufState 1) ∧ ∃ t, exec .hash64 (bufState 1) = .next t)
    ∧ ((stringState [0x61, 0x62, 0x63]).len = 3 ∧ 3 ≤ (stringState [0x61, 0x62, 0x63]).cfg.bufBytes
      ∧ (stringState [0x61, 0x62, 0x63]).buf.read 0 = some 0x61 ∧ (stringState [0x61, 0x62, 0x63]).buf.read 1 = some 0x62
      ∧ (stringState [0x61, 0x62, 0x63]).buf.read 2 = some 0x63) :=
  ⟨by decide, ⟨by decide, bufState_written 256 (by decide)⟩,
    ⟨by decide, partState_unwritten 0 1 (by decide) (by decide) rfl⟩, rfl, by decide, bufState_reads _ (by decide) 16 (by decide),
    bufState_reads _ (by decide) 65 (by decide), ⟨by decide, bufState_reads _ (by decide) 1 (by decide), _, rfl⟩, by decide⟩

theorem test_witness_Hashlen0to16Command :
    (partState 0 257).len.toNat > (partState 0 257).cfg.bufBytes
    ∧ ((bufState 17).len.toNat ≤ (bufState 17).cfg.bufBytes ∧ 16 < (bufState 17).len.toNat)
    ∧ ((bufState 16).len.toNat ≤ (bufState 16).cfg.bufBytes ∧ (bufState 16).len.toNat ≤ 16
      ∧ (bufState 16).InputWritten 0 (bufState 16).len.toNat)
    ∧ ((partState 15 16).len.toNat ≤ (partState 15 16).cfg.bufBytes ∧ (partState 15 16).len.toNat ≤ 16
      ∧ ¬ (partState 15 16).InputWritten 0 (partState 15 16).len.toNat)
    ∧ (bufState 0).len = 0
    ∧ readsWrittenInput .hashlen0to16 (bufState 16) :=
  ⟨by decide, by decide, ⟨by decide, by decide, bufState_written 16 (by decide)⟩,
    ⟨by decide, by decide, partState_unwritten 15 16 (by decide) (by decide) (by decide)⟩, rfl,
    bufState_reads _ (by decide) 16 (by decide)⟩

theorem test_witness_Hashlen17to32Command :
    (partState 0 257).len.toNat > (partState 0 257).cfg.bufBytes
    ∧ ((bufState 16).len.toNat < 17 ∧ 32 < (bufState 33).len.toNat
      ∧ (bufState 33).len.toNat ≤ (bufState 33).cfg.bufBytes)
    ∧ ((bufState 17).len.toNat ≤ (bufState 17).cfg.bufBytes ∧ 17 ≤ (bufState 17).len.toNat
      ∧ (bufState 17).len.toNat ≤ 32 ∧ (bufState 17).InputWritten 0 (bufState 17).len.toNat)
    ∧ ((bufState 32).len.toNat ≤ 32 ∧ (bufState 32).InputWritten 0 (bufState 32).len.toNat)
    ∧ ((partState 31 32).len.toNat ≤ (partState 31 32).cfg.bufBytes ∧ 17 ≤ (partState 31 32).len.toNat
      ∧ (partState 31 32).len.toNat ≤ 32 ∧ ¬ (partState 31 32).InputWritten 0 (partState 31 32).len.toNat)
    ∧ ((bufState 17).len = 17 ∧ 17 ≤ (bufState 17).cfg.bufBytes
      ∧ ∀ a, a < 17 → (bufState 17).buf.read a = some (BitVec.ofNat 8 a))
    ∧ readsWrittenInput .hashlen17to32 (bufState 17)
    ∧ readsWrittenInput .hashlen17to32 (bufState 32) :=
  ⟨by decide, by decide, ⟨by decide, by decide, by decide, bufState_written 17 (by decide)⟩,
    ⟨by decide, bufState_written 32 (by decide)⟩,
    ⟨by decide, by decide, by decide, partState_unwritten 31 32 (by decide) (by decide) (by decide)⟩,
    ⟨rfl, by decide, fun a h => pat_read 0 17 a (by omega) (by omega)⟩,
    bufState_reads _ (by decide) 17 (by decide), bufState_reads _ (by decide) 32 (by decide)⟩

theorem test_witness_Hashlen33to64Command :
    (partState 0 257).len.toNat > (partState 0 257).cfg.bufBytes
    ∧ ((bufState 32).len.toNat < 33 ∧ 64 < (bufState 65).len.toNat
      ∧ (bufState 65).len.toNat ≤ (bufState 65).cfg.bufBytes)
    ∧ ((bufState 33).len.toNat ≤ (bufState 33).cfg.bufBytes ∧ 33 ≤ (bufState 33).len.toNat
      ∧ (bufState 33).len.toNat ≤ 64 ∧ (bufState 33).InputWritten 0 (bufState 33).len.toNat)
    ∧ ((bufState 64).len.toNat ≤ 64 ∧ (bufState 64).InputWritten 0 (bufState 64).len.toNat)
    ∧ ((partState 63 64).len.toNat ≤ (partState 63 64).cfg.bufBytes ∧ 33 ≤ (partState 63 64).len.toNat
      ∧ (partState 63 64).len.toNat ≤ 64 ∧ ¬ (partState 63 64).InputWritten 0 (partState 63 64).len.toNat)
    ∧ ((bufState 33).len = 33 ∧ 33 ≤ (bufState 33).cfg.bufBytes
      ∧ ∀ a, a < 33 → (bufState 33).buf.read a = some (BitVec.ofNat 8 a))
    ∧ readsWrittenInput .hashlen33to64 (bufState 33)
    ∧ readsWrittenInput .hashlen33to64 (bufState 64) :=
  ⟨by decide, by decide, ⟨by decide, by decide, by decide, bufState_written 33 (by decide)⟩,
    ⟨by decide, bufState_written 64 (by decide)⟩,
    ⟨by decide, by decide, by decide, partState_unwritten 63 64 (by decide) (by decide) (by decide)⟩,
    ⟨rfl, by decide, fun a h => pat_read 0 33 a (by omega) (by omega)⟩,
    bufState_reads _ (by decide) 33 (by decide), bufState_reads _ (by decide) 64 (by decide)⟩

theorem test_witness_HashlongCommand :
    (partState 0 257).len.toNat > (partState 0 257).cfg.bufBytes
    ∧ ((bufState 64).len.toNat ≤ (bufState 64).cfg.bufBytes ∧ (bufState 64).len.toNat < 65)
    ∧ ((bufState 256).len.toNat ≤ (bufState 256).cfg.bufBytes ∧ 65 ≤ (bufState 256).len.toNat
      ∧ (bufState 256).InputWritten 0 (bufState 256).len.toNat)
    ∧ ((partState 64 65).len.toNat ≤ (partState 64 65).cfg.bufBytes ∧ 65 ≤ (partState 64 65).len.toNat
      ∧ ¬ (partState 64 65).InputWritten 0 (partState 64 65).len.toNat)
    ∧ ((bufState 65).len = 65 ∧ 65 ≤ (bufState 65).cfg.bufBytes
      ∧ ∀ a, a < 65 → (bufState 65).buf.read a = some (BitVec.ofNat 8 a))
    ∧ readsWrittenInput .hashlong (bufState 65) :=
  ⟨by decide, by decide, ⟨by decide, by decide, bufState_written 256 (by decide)⟩,
    ⟨by decide, by decide, partState_unwritten 64 65 (by decide) (by decide) (by decide)⟩,
    ⟨rfl, by decide, fun a h => pat_read 0 65 a (by omega) (by omega)⟩,
    bufState_reads _ (by decide) 65 (by decide)⟩

theorem test_witness_Weakhash32Command :
    (partState 0 257).len.toNat > (partState 0 257).cfg.bufBytes
    ∧ ((bufState 31).len.toNat ≤ (bufState 31).cfg.bufBytes ∧ (bufState 31).off.toNat + 32 > (bufState 31).len.toNat)
    ∧ ((bufState 32).len.toNat ≤ (bufState 32).cfg.bufBytes ∧ (bufState 32).off.toNat + 32 ≤ (bufState 32).len.toNat
      ∧ (bufState 32).InputWritten (bufState 32).off.toNat ((bufState 32).off.toNat + 32))
    ∧ ((partState 31 32).off.toNat + 32 ≤ (partState 31 32).len.toNat
      ∧ ¬ (partState 31 32).InputWritten (partState 31 32).off.toNat ((partState 31 32).off.toNat + 32))
    ∧ ((bufState 64).len = 64 ∧ 64 ≤ (bufState 64).cfg.bufBytes ∧ (bufState 64).off = 0 ∧ (bufState 64).opa = 0
      ∧ (bufState 64).opb = 0 ∧ ∀ a, a < 64 → (bufState 64).buf.read a = some (BitVec.ofNat 8 a)) :=
  ⟨by decide, by decide, ⟨by decide, by decide, bufState_written 32 (by decide)⟩,
    ⟨by decide, partState_unwritten 31 32 (by decide) (by decide) (by decide)⟩,
    rfl, by decide, rfl, rfl, rfl, fun a h => pat_read 0 64 a (by omega) (by omega)⟩

theorem test_witness_AbsoluteValue : (0x7FFFFFFFFFFFFFFF#64).toNat < 2 ^ 63 ∧ 2 ^ 63 ≤ (0x8000000000000000#64).toNat := by
  decide

theorem test_witness_BucketOfAHash : Config.default.buckets = 100 ∧ absVal 0x8000000000000000#64 = 2 ^ 63 := by decide

theorem test_witness_BucketCommand : Config.default.buckets = 100 := by decide

theorem test_witness_HashbucketCommand :
    (partState 0 257).len.toNat > (partState 0 257).cfg.bufBytes
    ∧ ((bufState 256).len.toNat ≤ (bufState 256).cfg.bufBytes ∧ (bufState 256).InputWritten 0 (bufState 256).len.toNat)
    ∧ ((partState 0 1).len.toNat ≤ (partState 0 1).cfg.bufBytes
      ∧ ¬ (partState 0 1).InputWritten 0 (partState 0 1).len.toNat)
    ∧ ((bufState 17).len.toNat ≤ (bufState 17).cfg.bufBytes ∧ (bufState 17).InputWritten 0 (bufState 17).len.toNat
      ∧ ∃ t, exec .hashbucket (bufState 17) = .next t)
    ∧ ((bufState 0).len = 0 ∧ (bufState 0).cfg.buckets = 100)
    ∧ ((stringState (payload defaultSalt [0x61, 0x62, 0x63, 0x31, 0x32, 0x33])).len = 21
      ∧ ∀ a, a < 21 → (stringState (payload defaultSalt [0x61, 0x62, 0x63, 0x31, 0x32, 0x33])).buf.read a
          = (payload defaultSalt [0x61, 0x62, 0x63, 0x31, 0x32, 0x33])[a]?) :=
  ⟨by decide, ⟨by decide, bufState_written 256 (by decide)⟩,
    ⟨by decide, partState_unwritten 0 1 (by decide) (by decide) rfl⟩,
    ⟨by decide, bufState_written 17 (by decide), _, rfl⟩, ⟨rfl, rfl⟩, rfl, by decide⟩

theorem test_witness_BucketResultsAreBelowTheModulus :
    (∃ t, exec .bucket (wordState 100 0 0) = .next t)
    ∧ ∃ t, exec .hashbucket { bufState 1 with faults := FaultSet.empty.record .unwrittenRead } = .next t
      ∧ t.status = 0x2#32
      ∧ State.InputWritten { bufState 1 with faults := FaultSet.empty.record .unwrittenRead } 0 (bufState 1).len.toNat :=
  ⟨⟨_, rfl⟩, _, rfl, by decide, bufState_written 1 (by decide)⟩

/-! All commands. -/

theorem test_witness_CommandFrame :
    (∃ t, exec .hash64 (bufState 64) = .next t) ∧ (∃ t, exec .rotr (bufState 65) = .next t)
    ∧ Instr.rotr ≠ .weakhash32 ∧ Instr.rotr ≠ .hashbucket ∧ Instr.rotr ≠ .hash64 ∧ Instr.rotr ≠ .hashlong
    ∧ (bufState 64).len.toNat ≤ 64 :=
  ⟨⟨_, rfl⟩, ⟨_, rfl⟩, by decide, by decide, by decide, by decide, by decide⟩

theorem test_witness_ErrorEffect :
    (∃ t, coreStep 0x00#32 (busyState 0x00 []) = .next t ∧ t.status.getLsbD 2 = true)
    ∧ (idleState []).status.getLsbD 0 = false ∧ (busyState 0x00 []).status.getLsbD 0 = true :=
  ⟨⟨_, rfl, by decide⟩, by decide, by decide⟩

theorem test_witness_ErrorCodesAndPriority :
    (∃ t, coreStep 0x00#32 (bufState 0) = .next t ∧ t.status ≠ 0x2#32)
    ∧ (∃ t, decode 0x12#32 = .ok .hashlen17to32 ∧ coreStep 0x12#32 (bufState 16) = .next t ∧ t.status = 0x306#32)
    ∧ (∃ t, decode 0x20#32 = .ok .weakhash32 ∧ coreStep 0x20#32 (bufState 31) = .next t ∧ t.status = 0x406#32)
    ∧ ∃ t, decode 0x12#32 = .ok .hashlen17to32 ∧ coreStep 0x12#32 (partState 0 257) = .next t ∧ t.status = 0x206#32 :=
  ⟨⟨_, rfl, by decide⟩, ⟨_, rfl, rfl, by decide⟩, ⟨_, rfl, rfl, by decide⟩, _, rfl, rfl, by decide⟩

theorem test_witness_ResultsDependOnOperandsOnly :
    sameOperands .hashbucket (bufState 1) { bufState 1 with off := 7, res0 := 9, buf := pat 0 2 }
    ∧ (∃ t, exec .hashbucket (bufState 1) = .next t ∧ t.status = 0x2#32 ∧ t.faults.unwrittenRead = false)
    ∧ (∃ t, exec .hashbucket { bufState 1 with off := 7, res0 := 9, buf := pat 0 2 } = .next t)
    ∧ (bufState 1).faults.unwrittenRead = false ∧ writesRes1 .hashbucket = true :=
  ⟨⟨rfl, rfl, fun a _ h => by
      have : a < 1 := h
      obtain rfl : a = 0 := by omega
      rfl⟩, ⟨_, rfl, by decide, by decide⟩, ⟨_, rfl⟩, by decide, by decide⟩

theorem test_witness_UnwrittenBytes :
    (busyState 0x10 [.host .reset]).turns = .host .reset :: []
    ∧ (255 < State.reset.cfg.bufBytes ∧ State.reset.status.getLsbD 0 = false ∧ State.reset.buf.read 255 = none)
    ∧ (248 % 8 = 0 ∧ 248 + 8 ≤ (partState 255 256).cfg.bufBytes ∧ (partState 255 256).status.getLsbD 0 = false
      ∧ (partState 255 256).buf.read (248 + 6) = some 254)
    ∧ (hashesBuffer .hash64 = true ∧ (partState 1 2).len.toNat ≤ (partState 1 2).cfg.bufBytes
      ∧ inBand .hash64 (partState 1 2).len.toNat = true ∧ (partState 1 2).faults.unwrittenRead = false
      ∧ ∃ t, exec .hash64 (partState 1 2) = .next t)
    ∧ ((partState 31 32).off.toNat + 32 ≤ (partState 31 32).len.toNat ∧ ∃ t, exec .weakhash32 (partState 31 32) = .next t) :=
  ⟨by decide, by decide, ⟨by decide, by decide, by decide, pat_read 0 255 254 (by omega) (by omega)⟩,
    ⟨by decide, by decide, by decide, by decide, _, rfl⟩, by decide, _, rfl⟩

/-! The host window. -/

theorem test_witness_OnlyTableAccessesAreLegal :
    accessOf Config.default 0x050 8 = none ∧ accessOf Config.default 0x000 8 = none
    ∧ accessOf Config.default 0x1001 8 = none ∧ accessOf Config.default 0x1100 1 = none
    ∧ accessOf Config.default 0x10FF 1 = some (.bufByte 255) ∧ accessOf Config.default 0x10F8 8 = some (.bufWord 248)
    ∧ ¬ legalPair Config.default 0x050 8 := by
  refine ⟨by decide, by decide, by decide, by decide, by decide, by decide, ?_⟩
  unfold legalPair
  omega

theorem test_witness_WritesWhileBusy : (busyState 0x01 []).status.getLsbD 0 = true
    ∧ (accessOf (busyState 0x01 []).cfg 0x10FF 1 = some (.bufByte 255) ∧ inputAccess (.bufByte 255) = true)
    ∧ (accessOf (busyState 0x01 []).cfg 0x048 8 = some (.reg .nbuckets) ∧ inputAccess (.reg .nbuckets) = false) := by
  decide

theorem test_witness_WindowIsLittleEndian : 248 % 8 = 0 ∧ 248 + 8 ≤ (bufState 256).cfg.bufBytes
    ∧ (bufState 256).status.getLsbD 0 = false ∧ (255 < 248 ∨ 248 + 8 ≤ 256)
    ∧ (∀ j, j < 8 → (bufState 256).buf.read (248 + j) = some (BitVec.ofNat 8 (248 + j))) :=
  ⟨by decide, by decide, by decide, by decide, fun j h => pat_read 0 256 _ (by omega) (by omega)⟩

theorem test_witness_ByteAccessesOfBuf : 255 < (bufState 256).cfg.bufBytes ∧ (bufState 256).status.getLsbD 0 = false
    ∧ (254 : Nat) ≠ 255 ∧ (bufState 256).buf.read 255 = some 255 :=
  ⟨by decide, by decide, by decide, pat_read 0 256 255 (by omega) (by omega)⟩

theorem test_witness_CmdRegister : (idleState []).status.getLsbD 0 = false ∧ (busyState 0x10 []).status.getLsbD 0 = true := by
  decide

theorem test_witness_OperandRegistersHoldWhatIsWritten : (wordState 1 2 3).status.getLsbD 0 = false := by decide

theorem test_witness_OffsetRegister : (wordState 1 2 3).status.getLsbD 0 = false ∧ Instr.hash64 ≠ .weakhash32
    ∧ (readsWrittenInput .hash64 (bufState 1) ∧ ∃ t, exec .hash64 (bufState 1) = .next t)
    ∧ ∃ t, exec .hash64 (partState 0 1) = .next t :=
  ⟨by decide, by decide, ⟨bufState_reads _ (by decide) 1 (by decide), _, rfl⟩, _, rfl⟩

theorem test_witness_StatusAndResultsReadOnly : (bufState 1).status.getLsbD 0 = false := by decide

theorem test_witness_InputsAreFixedWhileBusy :
    ∃ t, step (busyState 0x10 [.host (.memWrite 0x008 8 5)]) = .next t
      ∧ (busyState 0x10 [.host (.memWrite 0x008 8 5)]).status.getLsbD 0 = true
      ∧ ∀ left, (busyState 0x10 [.host (.memWrite 0x008 8 5)]).turns ≠ .host .reset :: left :=
  ⟨_, rfl, by decide, fun left h => by cases h⟩

theorem test_witness_WaitEndsWithBusyClear :
    (busyState 0x10 [.host .wait]).Inv ∧ (busyState 0x10 [.host .wait]).turns = .host .wait :: []
    ∧ (busyState 0x10 [.host .wait]).status.getLsbD 0 = true :=
  ⟨⟨by decide, by decide, by decide, by decide⟩, rfl, by decide⟩

theorem test_witness_PendingCommandCompletes :
    (busyState 0x10 [.host (.memRead 0x004 4), .core]).Inv
    ∧ (busyState 0x10 [.host (.memRead 0x004 4), .core]).pending = some 0x10#32 :=
  ⟨⟨by decide, by decide, by decide, by decide⟩, rfl⟩

end Sys2Proof.Tests
end

section
/-! PROOFS. R14: two runs of a command that start from states with the same operands end alike. -/

namespace Sys2Proof.Machine

/-- Two completions, from `s` and from `t`, of one kind and with the same register writes. `r1` says whether the command
writes RES1. -/
inductive EndsAlike (r1 : Bool) (s t : State) :
    Host.Outcome State Fault Refusal → Host.Outcome State Fault Refusal → Prop where
  | success (w : Writes) (h : r1 = true → w.res1.isSome = true) :
      EndsAlike r1 s t (.next (s.succeed w)) (.next (t.succeed w))
  | error (c : ErrCode) : EndsAlike r1 s t (.next (s.raiseError c)) (.next (t.raiseError c))
  | unspecified (a b : Bool) :
      EndsAlike r1 s t (.next (s.completeUnspecified a b)) (.next (t.completeUnspecified a b))
  | refused (x : Refusal) : EndsAlike r1 s t (.refused x) (.refused x)

section
variable {r1 : Bool} {s t s' t' : State}

/-! ### What two runs that end alike have in common -/

theorem EndsAlike.status_eq (h : EndsAlike r1 s t (.next s') (.next t')) : s'.status = t'.status := by
  cases h <;> rfl

theorem EndsAlike.unwrittenRead_eq (h : EndsAlike r1 s t (.next s') (.next t'))
    (e : s.faults.unwrittenRead = t.faults.unwrittenRead) : s'.faults.unwrittenRead = t'.faults.unwrittenRead := by
  cases h with
  | success => exact e
  | error => exact e
  | unspecified => rfl

/-- A success with no UnwrittenRead recorded is neither an error nor R48's completion, so both runs applied the same
writes. -/
theorem EndsAlike.results_eq (h : EndsAlike r1 s t (.next s') (.next t')) (hs : s'.status = statusSuccess)
    (hu : s'.faults.unwrittenRead = false) : s'.res0 = t'.res0 ∧ (r1 = true → s'.res1 = t'.res1) := by
  cases h with
  | success w h1 =>
    refine ⟨rfl, fun hr => ?_⟩
    obtain ⟨v, hv⟩ := Option.isSome_iff_exists.1 (h1 hr)
    simp [hv]
  | error c => exact absurd hs (statusError_ne_success c)
  | unspecified => cases hu

/-! ### The shared ways to complete a command end alike -/

theorem succeed_res0_endsAlike {v v' : Word} (e : v = v') :
    EndsAlike false s t (.next (s.succeed { res0 := v })) (.next (t.succeed { res0 := v' })) :=
  e ▸ .success _ nofun

theorem complete_endsAlike {k k' : Bool} {r r' : Except ReadFail Writes} (hk : k = k') (hr : r = r')
    (h1 : r1 = true → ∀ w, r = .ok w → w.res1.isSome = true) :
    EndsAlike r1 s t (complete s r1 k r) (complete t r1 k' r') := by
  subst hk hr
  cases r with
  | ok w => exact .success w (fun h => h1 h w rfl)
  | error f =>
    cases f with
    | unwritten => exact .unspecified r1 k
    | outOfBounds => exact .refused .outOfBoundsRead

theorem checkCapacity_endsAlike {go go' : Host.Outcome State Fault Refusal} (hc : s.cfg = t.cfg) (hl : s.len = t.len)
    (h : EndsAlike r1 s t go go') : EndsAlike r1 s t (checkCapacity s go) (checkCapacity t go') := by
  by_cases hs : s.len.toNat ≤ s.cfg.bufBytes
  · rwa [checkCapacity_of_le hs, checkCapacity_of_le (hl ▸ hc ▸ hs)]
  · have hs : s.len.toNat > s.cfg.bufBytes := by omega
    rw [checkCapacity_of_gt hs, checkCapacity_of_gt (hl ▸ hc ▸ hs)]
    exact .error _

theorem checkThat_endsAlike {ok ok' : Bool} {c : ErrCode} {go go' : Host.Outcome State Fault Refusal} (e : ok = ok')
    (h : EndsAlike r1 s t go go') : EndsAlike r1 s t (checkThat s ok c go) (checkThat t ok' c go') := by
  subst e
  cases ok with
  | true => exact h
  | false => exact .error c

/-! ### The writes of the buffer commands -/

theorem operandInput_same (hl : s.len = t.len) (hb : sameBytes s t 0 s.len.toNat) :
    (operandInput s).Same (operandInput t) :=
  ⟨congrArg BitVec.toNat hl, fun a ha => hb a (Nat.zero_le a) ha⟩

theorem bucketWrites_res1 {c : Config} {r : Except ReadFail Hashed} {w : Writes} (h : bucketWrites c r = .ok w) :
    w.res1.isSome = true := by
  cases r with
  | ok v => cases h; rfl
  | error f => cases h

theorem weakHashWrites_res1 {w : Writes} (h : weakHashWrites s = .ok w) : w.res1.isSome = true := by
  unfold weakHashWrites at h
  cases hv : weakHash32 (operandInput s) (operandOffset s) (operandSeedA s) (operandSeedB s) with
  | ok v => rw [hv] at h; cases h; rfl
  | error f => rw [hv] at h; cases h

/-- R112: the writes of WEAKHASH32 depend on LEN, OFF, OPA, OPB and BUF[OFF..OFF+32) alone. -/
theorem weakHashWrites_congr (hl : s.len = t.len) (ho : s.off = t.off) (ha : s.opa = t.opa) (hb : s.opb = t.opb)
    (hm : sameBytes s t s.off.toNat (s.off.toNat + 32)) : weakHashWrites s = weakHashWrites t := by
  have e : weakHash32 (operandInput s) s.off.toNat s.opa s.opb = weakHash32 (operandInput t) s.off.toNat s.opa s.opb :=
    weakHash32_congr _ _ (congrArg BitVec.toNat hl) hm
  simp only [weakHashWrites, operandOffset, operandSeedA, operandSeedB, e, ← ho, ← ha, ← hb]

end

/-- R14: what a command does is settled by its operands and the parameters. -/
theorem exec_endsAlike {i : Instr} {s t : State} (h : sameOperands i s t) :
    EndsAlike (writesRes1 i) s t (exec i s) (exec i t) := by
  obtain ⟨hc, h⟩ := h
  cases i with
  | rotr => exact succeed_res0_endsAlike (congrArg₂ rotr h.1 h.2)
  | shiftmix => exact succeed_res0_endsAlike (congrArg shiftMix h)
  | hashlen16 =>
    obtain ⟨ha, hb, hm⟩ := h
    exact succeed_res0_endsAlike (by simp only [operandU, operandV, operandMul, ha, hb, hm])
  | hash128to64 => exact succeed_res0_endsAlike (congrArg₂ hash128to64 h.1 h.2)
  | bucket => exact succeed_res0_endsAlike (congrArg wordOfNat (congrArg₂ bucketOf hc h))
  | weakhash32 =>
    obtain ⟨hl, ho, ha, hb, hm⟩ := h
    exact checkCapacity_endsAlike hc hl (checkThat_endsAlike (by simp only [offsetInRange, hl, ho])
      (complete_endsAlike rfl (weakHashWrites_congr hl ho ha hb hm) (fun _ _ => weakHashWrites_res1)))
  | hash64 =>
    obtain ⟨hl, hb⟩ := h
    exact checkCapacity_endsAlike hc hl
      (complete_endsAlike (by rw [hl]) (by rw [hc, (operandInput_same hl hb).topHash]) nofun)
  | hashlen0to16 =>
    obtain ⟨hl, hb⟩ := h
    exact checkCapacity_endsAlike hc hl (checkThat_endsAlike (by rw [hl])
      (complete_endsAlike rfl (by rw [(operandInput_same hl hb).hashLen0to16]) nofun))
  | hashlen17to32 =>
    obtain ⟨hl, hb⟩ := h
    exact checkCapacity_endsAlike hc hl (checkThat_endsAlike (by rw [hl])
      (complete_endsAlike rfl (by rw [(operandInput_same hl hb).hashLen17to32]) nofun))
  | hashlen33to64 =>
    obtain ⟨hl, hb⟩ := h
    exact checkCapacity_endsAlike hc hl (checkThat_endsAlike (by rw [hl])
      (complete_endsAlike rfl (by rw [hc, (operandInput_same hl hb).hashLen33to64]) nofun))
  | hashlong =>
    obtain ⟨hl, hb⟩ := h
    exact checkCapacity_endsAlike hc hl (checkThat_endsAlike (by rw [hl])
      (complete_endsAlike rfl (by rw [(operandInput_same hl hb).hashLong]) nofun))
  | hashbucket =>
    obtain ⟨hl, hb⟩ := h
    exact checkCapacity_endsAlike hc hl (complete_endsAlike (by rw [hl])
      (by rw [hc, (operandInput_same hl hb).topHash]) (fun _ _ => bucketWrites_res1))

/-- Settles O45: the two runs end alike (`exec_endsAlike`), so their STATUS, their record of UnwrittenRead and, after a
success on written input, their results are the same. -/
theorem resultsDependOnOperandsOnly : Obligations.ResultsDependOnOperandsOnly := by
  intro i s t s' t' ho es et
  have h := exec_endsAlike ho
  rw [es, et] at h
  exact ⟨h.status_eq, fun hs ht => h.unwrittenRead_eq (hs.trans ht.symm),
    fun hst hu => h.results_eq (hst.trans statusSuccess_eq.symm) hu⟩

end Sys2Proof.Machine
end

section
/-! PROOFS. Host accesses of a register (R41), and what no step changes: the configuration (R30) and, in a command,
OFF (R27). -/

namespace Sys2Proof.Machine

/-! ### Host accesses of a register -/

/-- R41: a register is reached at its offset with its size, whatever the configuration. -/
theorem accessOf_reg (c : Config) (r : WinReg) : accessOf c (regOffset r) (regSize r) = some (.reg r) := by
  cases r <;> rfl

theorem hostRead_reg (s : State) (r : WinReg) : hostRead s (regOffset r) (regSize r) = s.deliver (readReg s r) := by
  simp only [hostRead, accessOf_reg, readAccess]

theorem hostWrite_reg (s : State) (r : WinReg) (v : Word) :
    hostWrite s (regOffset r) (regSize r) v = writeReg s v r := by
  simp only [hostWrite, accessOf_reg, writeAccess]

theorem unlessBusy_of_idle {s : State} (h : s.status.getLsbD 0 = false) (w : State) : s.unlessBusy w = w :=
  if_neg (ne_true_of_eq_false h)

theorem wordOfNat_toNat {n : Nat} (h : n < 2 ^ 64) : (wordOfNat n).toNat = n :=
  (BitVec.toNat_ofNat n 64).trans (Nat.mod_eq_of_lt h)

/-! ### What a step keeps -/

/-- The core changes neither the configuration nor OFF: each of its three ways to complete keeps both. -/
theorem coreStep_keeps_cfg_off {w : Word32} {s t : State} (h : coreStep w s = .next t) :
    t.cfg = s.cfg ∧ t.off = s.off := by
  rcases coreStep_cases w s with ⟨x, e⟩ | ⟨c, e⟩ | ⟨r, k, e⟩ <;> rw [e] at h <;> cases h
  · exact ⟨State.succeed_cfg s x, State.succeed_off s x⟩
  · exact ⟨State.raiseError_cfg s c, State.raiseError_off s c⟩
  · exact ⟨State.completeUnspecified_cfg s r k, State.completeUnspecified_off s r k⟩

theorem coreStep_encode (i : Instr) (s : State) : coreStep (encode i) s = exec i s := by
  cases i <;> rfl

@[simp] theorem hostRead_cfg (s : State) (a size : Nat) : (hostRead s a size).cfg = s.cfg := by
  rcases hostRead_cases s a size with ⟨-, e⟩ | ⟨t, -, e⟩
  · rw [e, State.recordFault_cfg]
  · rw [e, State.deliver_cfg]

@[simp] theorem hostWrite_cfg (s : State) (a size : Nat) (v : Word) : (hostWrite s a size v).cfg = s.cfg := by
  rcases hostWrite_cases s a size v with ⟨f, e⟩ | e | ⟨-, e | e | e | e | e | e | ⟨i, bs, -, e⟩⟩ <;> simp [e]

@[simp] theorem hostStep_cfg (s : State) (stmt : HostStmt) : (hostStep s stmt).cfg = s.cfg := by
  cases stmt with
  | memRead a size => exact hostRead_cfg s a size
  | memWrite a size v => exact hostWrite_cfg s a size v
  | wait => exact hostRead_cfg s _ _
  | reset => exact State.blockReset_cfg s

/-- R5, R30: the parameters are the same after every step. -/
theorem step_keeps_cfg {s t : State} (h : step s = .next t) : t.cfg = s.cfg := by
  rcases step_eq s with ⟨w, left, -, -, e⟩ | ⟨stmt, left, -, e⟩ | ⟨left, -, e⟩ <;> rw [e] at h
  · exact (coreStep_keeps_cfg_off h).1
  · cases h
    simp
  · cases h
    rfl

/-- Settles O12: the two registers read the words of their parameters and have no write, and no step changes the
parameters (`step_keeps_cfg`). A modulus is below 2^64 by the configuration's own bound. -/
theorem configurationReadsBack : Obligations.ConfigurationReadsBack := by
  refine ⟨fun s => ⟨fun h => ?_, ?_, fun v => ?_⟩, fun s t => step_keeps_cfg⟩
  · exact ⟨wordOfNat s.cfg.bufBytes, wordOfNat_toNat h, hostRead_reg s .bufcap⟩
  · exact ⟨wordOfNat s.cfg.buckets, wordOfNat_toNat s.cfg.buckets_lt, hostRead_reg s .nbuckets⟩
  · exact ⟨hostWrite_reg s .bufcap v, hostWrite_reg s .nbuckets v⟩

/-! ### OFF -/

theorem exec_keeps_off {i : Instr} {s t : State} (h : exec i s = .next t) : t.off = s.off :=
  (coreStep_keeps_cfg_off ((coreStep_encode i s).trans h)).2

/-- OFF is no operand of a command other than WEAKHASH32 (R61, R63). -/
theorem sameOperands_setOff {i : Instr} (hi : i ≠ .weakhash32) (s : State) (v : Word) :
    sameOperands i s (s.setOff v) := by
  refine ⟨rfl, ?_⟩
  cases i
  case weakhash32 => exact absurd rfl hi
  all_goals simp [sameBytes]

/-- Runs that end alike, from states that differ in OFF alone, end in states that differ in OFF alone. -/
theorem EndsAlike.setOff {r1 : Bool} {s t : State} {v : Word} {o : Host.Outcome State Fault Refusal}
    (h : EndsAlike r1 s (s.setOff v) (.next t) o) : o = .next (t.setOff v) := by
  cases h <;> rfl

/-- R27: a command other than WEAKHASH32 does not read OFF. In this model that holds on unwritten input too: there the
two runs also draw the same free values (log entry 3), which the obligations do not ask for. -/
theorem exec_setOff {i : Instr} {s t : State} (hi : i ≠ .weakhash32) (v : Word) (h : exec i s = .next t) :
    exec i (s.setOff v) = .next (t.setOff v) := by
  have alike := exec_endsAlike (sameOperands_setOff hi s v)
  rw [h] at alike
  exact alike.setOff

/-- Settles O53: the register's accesses are R41's, a command keeps OFF (`exec_keeps_off`), and a command other than
WEAKHASH32 commutes with a store to OFF (`exec_setOff`), on written input and on unwritten input alike. -/
theorem offsetRegister : Obligations.OffsetRegister := by
  refine ⟨fun s v hb => ?_, fun s => hostRead_reg s .off, fun i s t => exec_keeps_off,
    fun i s t v hi _ h => exec_setOff hi v h, fun i s t v hi h => ?_, fun c => rfl, State.blockReset_off⟩
  · exact (hostWrite_reg s .off v).trans (unlessBusy_of_idle hb _)
  · exact ⟨t.setOff v, exec_setOff hi v h, rfl⟩

end Sys2Proof.Machine
end

section
/-! PROOFS. Byte order: what each byte of a little-endian word is (R43, R45, R46), and the core's reads of written bytes
(R44 to R46). -/

namespace Sys2Proof.Machine

/-! ### The bytes of a word -/

/-- Bit `i` of a little-endian word is bit `i % 8` of its byte `i / 8`; past the last byte the word is 0. -/
theorem getLsbD_leWord (bs : List Byte) {i : Nat} (hi : i < 64) :
    (leWord bs).getLsbD i = (bs[i / 8]?.getD 0).getLsbD (i % 8) := by
  induction bs generalizing i with
  | nil => simp [leWord]
  | cons b bs ih =>
    simp only [leWord, BitVec.getLsbD_or, BitVec.getLsbD_setWidth, BitVec.getLsbD_shiftLeft]
    by_cases h : i < 8
    · simp [h, hi, Nat.div_eq_of_lt h, Nat.mod_eq_of_lt h]
    · obtain ⟨k, rfl⟩ : ∃ k, i = k + 8 := ⟨i - 8, by omega⟩
      simp [hi, ih (i := k) (by omega)]

/-- R43: byte `j` of the little-endian word of `bs` is `bs`'s own. -/
theorem extractLsb'_leWord (bs : List Byte) {j : Nat} (hj : j < 8) :
    (leWord bs).extractLsb' (8 * j) 8 = bs[j]?.getD 0 := by
  apply BitVec.eq_of_getLsbD_eq
  intro i hi
  rw [BitVec.getLsbD_extractLsb', getLsbD_leWord bs (by omega), show (8 * j + i) / 8 = j by omega,
    show (8 * j + i) % 8 = i by omega]
  simp [hi]

/-- R45: the bits above four bytes are 0. -/
theorem leWord_high_zero {bs : List Byte} (h : bs.length ≤ 4) : (leWord bs).extractLsb' 32 32 = 0 := by
  apply BitVec.eq_of_getLsbD_eq
  intro i hi
  rw [BitVec.getLsbD_extractLsb', getLsbD_leWord bs (by omega), List.getElem?_eq_none (by omega)]
  simp

/-- R45: four bytes as an or. -/
theorem leWord_four (b0 b1 b2 b3 : Byte) : leWord [b0, b1, b2, b3]
    = b0.setWidth 64 ||| (b1.setWidth 64 <<< 8) ||| (b2.setWidth 64 <<< 16) ||| (b3.setWidth 64 <<< 24) := by
  simp [leWord, BitVec.shiftLeft_or_distrib, ← BitVec.shiftLeft_add, BitVec.or_assoc]

/-- R43: `bytesOf` lists the bytes of a word in order. -/
theorem bytesOf_getElem? (v : Word) {j : Nat} (hj : j < 8) : (bytesOf v)[j]? = some (byteOf v j) := by
  have e : bytesOf v = (List.range 8).map (byteOf v) := rfl
  rw [e, List.getElem?_map, List.getElem?_range hj, Option.map_some]

theorem byteOf_zero (v : Word) : byteOf v 0 = v.setWidth 8 :=
  (BitVec.setWidth_eq_extractLsb' (by decide)).symm

/-! ### The core's reads of written bytes -/

theorem readByte_of_read {i : Input} {o : Nat} {b : Byte} (h : i.buf.read o = some b) : readByte i o = .ok b := by
  simp only [readByte, h]

theorem readBytes_cons {i : Input} {o k : Nat} {b : Byte} {bs : List Byte} (h : i.buf.read o = some b)
    (hs : readBytes i (o + 1) k = .ok bs) : readBytes i o (k + 1) = .ok (b :: bs) := by
  rw [readBytes, readByte_of_read h, hs]; rfl

theorem read8_of_read {i : Input} {o : Nat} {b : Byte} (hl : o < i.len) (h : i.buf.read o = some b) :
    read8 i o = .ok b := by
  rw [read8, if_pos hl, readByte_of_read h]

theorem read32_of_readBytes {i : Input} {o : Nat} {bs : List Byte} (hl : o + 4 ≤ i.len)
    (h : readBytes i o 4 = .ok bs) : read32 i o = .ok (leWord bs) := by
  rw [read32, if_pos hl, h]; rfl

theorem read64_of_readBytes {i : Input} {o : Nat} {bs : List Byte} (hl : o + 8 ≤ i.len)
    (h : readBytes i o 8 = .ok bs) : read64 i o = .ok (leWord bs) := by
  rw [read64, if_pos hl, h]; rfl

/-- Settles O20: a read is the little-endian word of the bytes it finds one after another (`readBytes_cons`), four as an
or (`leWord_four`), eight as a sum (`leWord_eight`). -/
theorem coreReadsAreLittleEndian : Obligations.CoreReadsAreLittleEndian := by
  refine fun i o => ⟨fun b0 hl h => read8_of_read hl h, ?_, ?_⟩
  · intro b0 b1 b2 b3 hl h0 h1 h2 h3
    have bytes : readBytes i o 4 = .ok [b0, b1, b2, b3] :=
      readBytes_cons h0 (readBytes_cons h1 (readBytes_cons h2 (readBytes_cons h3 rfl)))
    exact ⟨_, read32_of_readBytes hl bytes, leWord_four b0 b1 b2 b3, leWord_high_zero le_rfl⟩
  · intro b0 b1 b2 b3 b4 b5 b6 b7 hl h0 h1 h2 h3 h4 h5 h6 h7
    have bytes : readBytes i o 8 = .ok [b0, b1, b2, b3, b4, b5, b6, b7] :=
      readBytes_cons h0 (readBytes_cons h1 (readBytes_cons h2 (readBytes_cons h3
        (readBytes_cons h4 (readBytes_cons h5 (readBytes_cons h6 (readBytes_cons h7 rfl)))))))
    exact (read64_of_readBytes hl bytes).trans (congrArg _ (leWord_eight b0 b1 b2 b3 b4 b5 b6 b7))

end Sys2Proof.Machine
end

section
/-! PROOFS. Host accesses: which are legal (R41, R42), and what those of BUF do (R43, R48). -/

namespace Sys2Proof.Machine

/-! ### The legal accesses -/

/-- R42: the access function and R41's table agree. -/
theorem accessOf_isSome_iff (c : Config) (a size : Nat) : (∃ x, accessOf c a size = some x) ↔ legalPair c a size := by
  constructor
  · rintro ⟨x, hx⟩
    have bounds := accessOf_bounds hx
    unfold legalPair
    cases x with
    | reg r =>
      obtain ⟨rfl, rfl⟩ := bounds
      cases r <;> simp [regOffset, regSize]
    | bufByte i =>
      obtain ⟨hi, rfl, rfl⟩ := bounds
      simp [bufBase, hi]
    | bufWord i =>
      obtain ⟨hm, hi, rfl, rfl⟩ := bounds
      simp [bufBase, hm, hi]
  · rintro (⟨rfl, rfl⟩ | ⟨rfl, rfl⟩ | ⟨rfl, rfl⟩ | ⟨rfl, rfl⟩ | ⟨rfl, rfl⟩ | ⟨rfl, rfl⟩ | ⟨rfl, rfl⟩ | ⟨rfl, rfl⟩
      | ⟨rfl, rfl⟩ | ⟨rfl, rfl⟩ | ⟨rfl, rfl⟩ | ⟨i, hi, rfl, rfl⟩ | ⟨i, hm, hi, rfl, rfl⟩)
    · exact ⟨_, accessOf_reg c .cmd⟩
    · exact ⟨_, accessOf_reg c .status⟩
    · exact ⟨_, accessOf_reg c .len⟩
    · exact ⟨_, accessOf_reg c .off⟩
    · exact ⟨_, accessOf_reg c .opa⟩
    · exact ⟨_, accessOf_reg c .opb⟩
    · exact ⟨_, accessOf_reg c .opm⟩
    · exact ⟨_, accessOf_reg c .res0⟩
    · exact ⟨_, accessOf_reg c .res1⟩
    · exact ⟨_, accessOf_reg c .bufcap⟩
    · exact ⟨_, accessOf_reg c .nbuckets⟩
    · exact ⟨_, accessOf_bufByte hi⟩
    · exact ⟨_, accessOf_bufWord hm hi⟩

theorem accessOf_eq_none_of_not_legalPair {c : Config} {a size : Nat} (h : ¬ legalPair c a size) :
    accessOf c a size = none :=
  Option.eq_none_iff_forall_ne_some.2 fun x hx => h ((accessOf_isSome_iff c a size).1 ⟨x, hx⟩)

theorem hostRead_of_accessOf_eq_none {s : State} {a size : Nat} (h : accessOf s.cfg a size = none) :
    hostRead s a size = s.recordFault .busError := by
  simp only [hostRead, h]

theorem hostWrite_of_accessOf_eq_none {s : State} {a size : Nat} (h : accessOf s.cfg a size = none) (v : Word) :
    hostWrite s a size v = s.recordFault .busError := by
  simp only [hostWrite, h]

/-- Settles O47: the access function is R41's table (`accessOf_isSome_iff`), and outside it an access records BusError
alone. -/
theorem onlyTableAccessesAreLegal : Obligations.OnlyTableAccessesAreLegal := by
  refine ⟨accessOf_isSome_iff, fun s a size h => ?_⟩
  have noAccess := accessOf_eq_none_of_not_legalPair h
  exact ⟨hostRead_of_accessOf_eq_none noAccess, hostWrite_of_accessOf_eq_none noAccess⟩

/-! ### Accesses of BUF -/

section
variable {s : State} {k : Nat}

theorem hostRead_bufByte (h : k < s.cfg.bufBytes) :
    hostRead s (0x1000 + k) 1 = s.deliver (wordOfByte (hostByte s s.draws k)) := by
  simp only [hostRead, accessOf_bufByte h, readAccess]

theorem hostRead_bufWord (hm : k % 8 = 0) (h : k + 8 ≤ s.cfg.bufBytes) :
    hostRead s (0x1000 + k) 8 = s.deliver (hostWord s k) := by
  simp only [hostRead, accessOf_bufWord hm h, readAccess]

theorem hostWrite_bufByte (h : k < s.cfg.bufBytes) (idle : s.status.getLsbD 0 = false) (v : Word) :
    hostWrite s (0x1000 + k) 1 v = s.setBuf (s.buf.write k (byteOf v 0)) := by
  simp only [hostWrite, accessOf_bufByte h, writeAccess, unlessBusy_of_idle idle]

theorem hostWrite_bufWord (hm : k % 8 = 0) (h : k + 8 ≤ s.cfg.bufBytes) (idle : s.status.getLsbD 0 = false)
    (v : Word) : hostWrite s (0x1000 + k) 8 v = s.setBuf (s.buf.writeBytes k (bytesOf v)) := by
  simp only [hostWrite, accessOf_bufWord hm h, writeAccess, unlessBusy_of_idle idle]

theorem hostByte_of_read {b : Byte} (d : Nat) (h : s.buf.read k = some b) : hostByte s d k = b := by
  simp only [hostByte, h, Option.getD_some]

/-- R43: byte `j` of an eight-byte read is what a read of that byte gives. -/
theorem extractLsb'_hostWord (s : State) (k : Nat) {j : Nat} (hj : j < 8) :
    (hostWord s k).extractLsb' (8 * j) 8 = hostByte s (s.draws + j) (k + j) := by
  have e : hostWord s k = leWord ((List.range 8).map fun j => hostByte s (s.draws + j) (k + j)) := rfl
  rw [e, extractLsb'_leWord _ hj, List.getElem?_map, List.getElem?_range hj, Option.map_some, Option.getD_some]

end

/-- R43: an eight-byte write puts byte `j` of the word at index `k + j`. -/
theorem Memory.read_writeBytes_bytesOf (m : Memory) (k : Nat) (v : Word) {j : Nat} (hj : j < 8) :
    (m.writeBytes k (bytesOf v)).read (k + j) = some (byteOf v j) := by
  have len : (bytesOf v).length = 8 := rfl
  rw [Memory.read_writeBytes, len, if_pos (by omega), Nat.add_sub_cancel_left, bytesOf_getElem? v hj]

/-- R43: an eight-byte write changes no byte outside its eight. -/
theorem Memory.read_writeBytes_bytesOf_other (m : Memory) {k a : Nat} (v : Word) (h : a < k ∨ k + 8 ≤ a) :
    (m.writeBytes k (bytesOf v)).read a = m.read a := by
  have len : (bytesOf v).length = 8 := rfl
  rw [Memory.read_writeBytes, len, if_neg (by omega)]

/-- Settles O49: the write stores the word's bytes in order and keeps the rest; the read is the little-endian word of the
eight bytes, as a sum (`leWord_eight`). -/
theorem windowIsLittleEndian : Obligations.WindowIsLittleEndian := by
  refine fun s k hm hk => ⟨fun v idle => ?_, ?_⟩
  · exact ⟨_, hostWrite_bufWord hm hk idle v, fun j => Memory.read_writeBytes_bytesOf s.buf k v,
      fun a => Memory.read_writeBytes_bytesOf_other s.buf v⟩
  · intro b0 b1 b2 b3 b4 b5 b6 b7 h0 h1 h2 h3 h4 h5 h6 h7
    have word : hostWord s k = leWord [b0, b1, b2, b3, b4, b5, b6, b7] := by
      simp only [hostWord, hostByte_of_read _ h0, hostByte_of_read _ h1, hostByte_of_read _ h2,
        hostByte_of_read _ h3, hostByte_of_read _ h4, hostByte_of_read _ h5, hostByte_of_read _ h6,
        hostByte_of_read _ h7]
    rw [hostRead_bufWord hm hk, word, leWord_eight]
    rfl

end Sys2Proof.Machine
end

section
/-! PROOFS. Unwritten BUF bytes (R48): after reset, under the host's accesses, and in the core's reads. -/

namespace Sys2Proof.Machine

@[simp] theorem hostRead_buf (s : State) (a size : Nat) : (hostRead s a size).buf = s.buf := by
  rcases hostRead_cases s a size with ⟨-, e⟩ | ⟨t, -, e⟩
  · rw [e, State.recordFault_buf]
  · rw [e, State.deliver_buf]

/-- R150: the host's reset turn resets the block in one step, a pending command or not. -/
theorem step_reset {s : State} {left : List Turn} (h : s.turns = .host .reset :: left) :
    step s = .next (s.withTurns left).blockReset := by
  have move : nextMove s = .host .reset left := by simp only [nextMove, h]
  simp only [step, move, hostStep]

/-- R48: a command that its checks let run records UnwrittenRead exactly where a byte it reads is unwritten. -/
theorem exec_unwrittenRead_iff {i : Instr} {s t : State} (hc : s.len.toNat ≤ s.cfg.bufBytes)
    (hb : inBand i s.len.toNat = true) (hr : i = .weakhash32 → s.off.toNat + 32 ≤ s.len.toNat)
    (hf : s.faults.unwrittenRead = false) (e : exec i s = .next t) :
    t.faults.unwrittenRead = true ↔ ¬ InputReady i s := by
  cases exec_outcome i s with
  | capacity _ h => omega
  | band _ b => rw [hb] at b; cases b
  | range w _ r => have := hr w; omega
  | runs _ _ _ run =>
    rcases run with ⟨ready, w, e', -, -⟩ | ⟨unready, e'⟩
    · obtain rfl : s.succeed w = t := by rw [e'] at e; cases e; rfl
      simp [ready, hf]
    · obtain rfl : s.completeUnspecified _ _ = t := by rw [e'] at e; cases e; rfl
      simp [unready, FaultSet.record]

theorem inputReady_iff_of_hashesBuffer {i : Instr} (h : hashesBuffer i = true) (s : State) :
    InputReady i s ↔ s.buf.Written 0 s.len.toNat := by
  cases i with
  | hash64 | hashlen0to16 | hashlen17to32 | hashlen33to64 | hashlong | hashbucket => exact Iff.rfl
  | rotr | shiftmix | hashlen16 | hash128to64 | weakhash32 | bucket => cases h

/-- Settles O46: BUF is empty after reset; the host's writes make their bytes written and its reads leave BUF as it is
(the rules of the section before); a command records UnwrittenRead exactly where its input is not ready
(`exec_unwrittenRead_iff`). -/
theorem unwrittenBytes : Obligations.UnwrittenBytes := by
  refine ⟨fun c => Memory.read_nil, fun s left h => ⟨_, step_reset h, Memory.read_nil⟩, fun s k v hk idle => ?_,
    hostRead_buf, fun s k hk _ => ⟨_, hostRead_bufByte hk⟩, fun s k hm hk => ⟨fun v j idle hj => ?_, ?_⟩, ?_, ?_⟩
  · rw [hostWrite_bufByte hk idle, State.setBuf_buf, Memory.read_write_same, byteOf_zero]
  · rw [hostWrite_bufWord hm hk idle]
    exact Memory.read_writeBytes_bytesOf s.buf k v hj
  · refine ⟨_, hostRead_bufWord hm hk, fun j b hj h => ?_⟩
    rw [extractLsb'_hostWord s k hj, hostByte_of_read _ h]
  · intro i s t hi hc hb hf e
    have noRange : i = .weakhash32 → s.off.toNat + 32 ≤ s.len.toNat := by rintro rfl; cases hi
    rw [exec_unwrittenRead_iff hc hb noRange hf e, inputReady_iff_of_hashesBuffer hi, not_written_iff]
    simp
  · intro s t hc hr hf e
    rw [exec_unwrittenRead_iff hc rfl (fun _ => hr) hf e]
    exact not_written_iff s.buf s.off.toNat 32

end Sys2Proof.Machine
end

section
/-! PROOFS. The decoder (R60 to R64): a word decodes to a command exactly if it is the command's encoding, and to some
command exactly if R62 does not make it illegal. -/

namespace Sys2Proof

/-! ### The fields of a word (R60) -/

theorem rsvdField_append_opcodeField (w : Word32) : rsvdField w ++ opcodeField w = w := by
  simp only [rsvdField, opcodeField, BitVec.extractLsb'_append_extractLsb'_eq_extractLsb' (Nat.zero_add 8).symm,
    BitVec.extractLsb'_eq_self]

@[simp] theorem rsvdField_encode (i : Instr) : rsvdField (encode i) = 0 :=
  BitVec.extractLsb'_append_eq_left

@[simp] theorem opcodeField_encode (i : Instr) : opcodeField (encode i) = opcodeOf i :=
  BitVec.extractLsb'_append_eq_right

theorem eq_encode_iff {w : Word32} {i : Instr} : w = encode i ↔ rsvdField w = 0 ∧ opcodeField w = opcodeOf i := by
  constructor
  · rintro rfl
    exact ⟨rsvdField_encode i, opcodeField_encode i⟩
  · rintro ⟨hr, ho⟩
    rw [← rsvdField_append_opcodeField w, hr, ho, encode]

theorem opcodeField_toNat (w : Word32) : (opcodeField w).toNat = w.toNat % 256 :=
  BitVec.extractLsb'_toNat 0 8 w

/-- R62 (a), as the decoder looks at RSVD. -/
theorem reservedClear_iff {w : Word32} : reservedClear w = true ↔ rsvdField w = 0 := by
  have field : (rsvdField w).toNat = w.toNat / 256 := by
    rw [rsvdField, BitVec.extractLsb'_toNat, Nat.shiftRight_eq_div_pow]
    exact Nat.mod_eq_of_lt (by omega)
  rw [reservedClear, beq_iff_eq, ← field]
  exact BitVec.toNat_inj (y := 0)

/-! ### The opcode map (R61) -/

/-- A row of the opcode map gives the command whose OPCODE it names. -/
theorem eq_opcodeOf_of_row {op code : BitVec 8} {i j : Instr} {later : Option Instr}
    (h : (if op = code then some j else later) = some i) (row : code = opcodeOf j)
    (rest : later = some i → op = opcodeOf i) : op = opcodeOf i := by
  by_cases hit : op = code
  · rw [if_pos hit] at h
    cases h
    exact hit.trans row
  · exact rest ((if_neg hit).symm.trans h)

/-- R61: the opcode map inverts `opcodeOf`. -/
theorem decodeOpcode_eq_some_iff {op : BitVec 8} {i : Instr} : decodeOpcode op = some i ↔ op = opcodeOf i := by
  constructor
  · intro h
    unfold decodeOpcode at h
    iterate 12 refine eq_opcodeOf_of_row h rfl fun h => ?_
    cases h
  · rintro rfl
    cases i <;> rfl

/-- R62 (b): the list of unassigned opcodes is the complement of R61's table, compared opcode by opcode. -/
theorem opcodeUnassigned_eq_isNone : ∀ op : BitVec 8, opcodeUnassigned op.toNat = (decodeOpcode op).isNone := by
  decide

theorem opcodeUnassigned_eq_false_iff {op : BitVec 8} :
    opcodeUnassigned op.toNat = false ↔ ∃ i, decodeOpcode op = some i := by
  rw [opcodeUnassigned_eq_isNone, Option.isNone_eq_false_iff, Option.isSome_iff_exists]

/-! ### Decoding -/

/-- R61, R64: the decoder accepts a command's encoding and nothing else. -/
theorem decode_eq_ok_iff {w : Word32} {i : Instr} : decode w = .ok i ↔ w = encode i := by
  rw [eq_encode_iff, ← decodeOpcode_eq_some_iff, decode]
  by_cases hr : rsvdField w = 0
  · rw [if_neg (not_not_intro hr), and_iff_right hr]
    cases decodeOpcode (opcodeField w) <;> simp
  · rw [if_pos hr]
    simp only [reduceCtorEq, hr, false_and]

/-- R62: a word decodes exactly if neither clause makes it illegal. -/
theorem decode_isOk_iff {w : Word32} : (∃ i, decode w = .ok i) ↔ commandWordWf w = true := by
  simp only [decode_eq_ok_iff, eq_encode_iff, ← decodeOpcode_eq_some_iff, exists_and_left, commandWordWf,
    Bool.and_eq_true, Bool.not_eq_true', reservedClear_iff, ← opcodeField_toNat, opcodeUnassigned_eq_false_iff]

theorem decode_isError_iff {w : Word32} : (∃ e, decode w = .error e) ↔ commandWordWf w = false := by
  rw [← Bool.not_eq_true, ← decode_isOk_iff]
  cases decode w <;> simp

@[simp] theorem decode_encode (i : Instr) : decode (encode i) = .ok i :=
  decode_eq_ok_iff.mpr rfl

theorem encode_injective {i j : Instr} (h : encode i = encode j) : i = j :=
  Except.ok.inj ((decode_encode i).symm.trans (decode_eq_ok_iff.mpr h))

/-- Settles O3: every row's mask is all ones, so a row matches a word exactly if the word is the row's encoding, which
is when the word decodes to it (`decode_eq_ok_iff`); R62's own list is `decode_isOk_iff`. -/
theorem decodingIsTotalAndExact : Obligations.DecodingIsTotalAndExact := by
  intro w
  have mask : w &&& 0xFFFFFFFF#32 = w := BitVec.and_allOnes
  rw [mask]
  exact ⟨decode_isOk_iff, decode_isError_iff, fun i => decode_eq_ok_iff,
    fun i j hi hj => encode_injective (hi.symm.trans hj)⟩

end Sys2Proof
end

section
/-! PROOFS. The rotator and the shift-mix (R70, R71), and the commands ROTR and SHIFTMIX (R73, R74). -/

namespace Sys2Proof.Machine

/-! ### The rotator (R70) -/

/-- The rotator is the library's rotate right, whose or of two shifts also serves a shift of 0. -/
theorem rotr_eq_rotateRight (v k : Word) : rotr v k = v.rotateRight k.toNat := by
  rw [rotr, BitVec.rotateRight_def]
  by_cases hs : k.toNat % 64 = 0
  · simp [hs]
  · exact if_neg hs

/-- R70: the rotator moves bit `(i + s) mod 64` to bit `i`. -/
theorem getLsbD_rotr (v k : Word) {i : Nat} (hi : i < 64) :
    (rotr v k).getLsbD i = v.getLsbD ((i + k.toNat % 64) % 64) := by
  rw [rotr_eq_rotateRight, BitVec.getLsbD_rotateRight]
  by_cases h : i < 64 - k.toNat % 64
  · rw [decide_eq_true h, cond_true, show (i + k.toNat % 64) % 64 = k.toNat % 64 + i by omega]
  · rw [decide_eq_false h, cond_false, decide_eq_true hi, Bool.true_and,
      show (i + k.toNat % 64) % 64 = i - (64 - k.toNat % 64) by omega]

theorem rotr_of_multiple (v : Word) {k : Word} (h : k.toNat % 64 = 0) : rotr v k = v :=
  if_pos h

theorem rotr_congr (v : Word) {k l : Word} (h : k.toNat % 64 = l.toNat % 64) : rotr v k = rotr v l := by
  rw [rotr, rotr, h]

/-- R70: a rotate right by `s` is a rotate left by what `s` lacks to 64. -/
theorem rotr_eq_rotateLeft (v k : Word) : rotr v k = v.rotateLeft ((64 - k.toNat % 64) % 64) := by
  by_cases hs : k.toNat % 64 = 0
  · rw [rotr_of_multiple v hs, hs, BitVec.rotateLeft_def]
    simp [BitVec.ushiftRight_eq_zero]
  · rw [rotr, if_neg hs, BitVec.rotateLeft_def, Nat.mod_mod, Nat.mod_eq_of_lt (by omega : 64 - k.toNat % 64 < 64),
      show 64 - (64 - k.toNat % 64) = k.toNat % 64 by omega, BitVec.or_comm]

/-- A word whose bits are all alike is its own rotation. -/
theorem rotr_of_bits_alike {v : Word} {b : Bool} (h : ∀ i, i < 64 → v.getLsbD i = b) (k : Word) : rotr v k = v :=
  BitVec.eq_of_getLsbD_eq fun i hi => by rw [getLsbD_rotr v k hi, h i hi, h _ (Nat.mod_lt _ (by decide))]

theorem toNat_and_63 (k : Word) : (k &&& 63).toNat = k.toNat % 64 := by
  rw [BitVec.toNat_and]
  exact Nat.and_two_pow_sub_one_eq_mod k.toNat 6

/-- R70: reducing an integer's two's-complement pattern modulo 64 reduces the integer, since 64 divides 2^64. -/
theorem ofInt_toNat_mod_64 (z : Int) : (((BitVec.ofInt 64 z).toNat % 64 : Nat) : Int) = z % 64 := by
  have pattern : ((BitVec.ofInt 64 z).toNat : Int) = z % 2 ^ 64 := by
    rw [BitVec.toNat_ofInt]
    omega
  omega

/-- Settles O13: the formula is the definition; the bit law is `getLsbD_rotr`, the rotate left
`rotr_eq_rotateLeft`. -/
theorem rotateRightMovesBits : Obligations.RotateRightMovesBits := by
  intro v k
  have field : k.toNat % 64 = (k.extractLsb' 0 6).toNat := (BitVec.extractLsb'_toNat 0 6 k).symm
  exact ⟨rfl, fun i hi => getLsbD_rotr v k hi, rotr_eq_rotateLeft v k, field, ofInt_toNat_mod_64⟩

/-! ### The shift-mix (R71) -/

/-- R71: bit `i` of the shift-mix takes in bit `47 + i`, which from `i = 17` on lies beyond the word. -/
theorem getLsbD_shiftMix (v : Word) (i : Nat) : (shiftMix v).getLsbD i = (v.getLsbD i ^^ v.getLsbD (47 + i)) := by
  rw [shiftMix, BitVec.getLsbD_xor, BitVec.getLsbD_ushiftRight]

theorem getLsbD_shiftMix_high (v : Word) {i : Nat} (hi : 17 ≤ i) : (shiftMix v).getLsbD i = v.getLsbD i := by
  rw [getLsbD_shiftMix, BitVec.getLsbD_of_ge v (47 + i) (by omega), Bool.xor_false]

/-- R71: a field above bit 16 is untouched. -/
theorem extractLsb'_shiftMix_high (v : Word) {start : Nat} (len : Nat) (h : 17 ≤ start) :
    (shiftMix v).extractLsb' start len = v.extractLsb' start len :=
  BitVec.eq_of_getLsbD_eq fun i _ => by
    rw [BitVec.getLsbD_extractLsb', BitVec.getLsbD_extractLsb', getLsbD_shiftMix_high v (by omega)]

/-- R71: the low field takes in the 17 top bits. -/
theorem extractLsb'_shiftMix_low (v : Word) :
    (shiftMix v).extractLsb' 0 17 = v.extractLsb' 0 17 ^^^ v.extractLsb' 47 17 :=
  BitVec.eq_of_getLsbD_eq fun i hi => by
    simp only [BitVec.getLsbD_xor, BitVec.getLsbD_extractLsb', getLsbD_shiftMix, hi, decide_true, Bool.true_and,
      Nat.zero_add]

/-- Settles O14: bit `i` takes in bit `47 + i` (`getLsbD_shiftMix`), which only the low 17 bits have. -/
theorem shiftMixFoldsTheTopBits : Obligations.ShiftMixFoldsTheTopBits := by
  intro v
  exact ⟨rfl, extractLsb'_shiftMix_high v 17 (by decide), extractLsb'_shiftMix_low v,
    extractLsb'_shiftMix_high v 30 (by decide)⟩

/-- R74: with nothing from bit 47 on there is nothing to fold. -/
theorem shiftMix_of_lt {v : Word} (h : v.toNat < 2 ^ 47) : shiftMix v = v := by
  have top : v >>> 47 = 0 := BitVec.eq_of_toNat_eq (Nat.shiftRight_eq_zero v.toNat 47 h)
  rw [shiftMix, top]
  exact BitVec.xor_zero

/-! ### The commands -/

/-- R73, R153: what ROTR changes, in any state. -/
theorem exec_rotr (s : State) :
    exec .rotr s = .next { s with res0 := rotr s.opa s.opb, pending := none, status := 0x2#32 } := rfl

/-- R74, R153: what SHIFTMIX changes, in any state. -/
theorem exec_shiftmix (s : State) :
    exec .shiftmix s = .next { s with res0 := shiftMix s.opa, pending := none, status := 0x2#32 } := rfl

/-- Settles O16: OPB = 2^64 - 1 has the reduced shift 63, so rotates left by 1, and OPB[5:0] is the reduced shift
(`rotr_congr`). -/
theorem rotrCommand : Obligations.RotrCommand := by
  refine ⟨decode_encode .rotr, exec_rotr, fun a b h => rotr_of_multiple a h, fun a => ?leftByOne,
    fun b => ⟨?zeros, ?ones⟩, fun a b => ?lowBits, by decide⟩
  case leftByOne => exact rotr_eq_rotateLeft a (BitVec.allOnes 64)
  case zeros => exact rotr_of_bits_alike (b := false) (fun i _ => BitVec.getLsbD_zero) b
  case ones => exact rotr_of_bits_alike (b := true) (fun i hi => BitVec.getLsbD_allOnes.trans (decide_eq_true hi)) b
  case lowBits => exact rotr_congr a (by rw [toNat_and_63, Nat.mod_mod])

/-- Settles O17: an OPA below 2^47 has no bit to fold (`shiftMix_of_lt`); the other values are evaluated. -/
theorem shiftmixCommand : Obligations.ShiftmixCommand :=
  ⟨decode_encode .shiftmix, exec_shiftmix, fun _ h => shiftMix_of_lt h, by decide, by decide, by decide⟩

end Sys2Proof.Machine
end

section
/-! PROOFS. The combiners (R80, R81), and the commands HASHLEN16 and HASH128TO64 (R82, R83). -/

namespace Sys2Proof.Machine

/-! ### The combiners (R80, R81) -/

theorem hashLen16_eq (u v mul : Word) :
    hashLen16 u v mul = shiftMix ((v ^^^ shiftMix ((u ^^^ v) * mul)) * mul) * mul := rfl

theorem hash128to64_eq_hashLen16 (u v : Word) : hash128to64 u v = hashLen16 u v 0x9DDFEA08EB382D69#64 := rfl

@[simp] theorem shiftMix_zero : shiftMix 0#64 = 0#64 := shiftMix_of_lt (by decide)

/-- R82: the last multiplication is by OPM. -/
@[simp] theorem hashLen16_mul_zero (u v : Word) : hashLen16 u v 0#64 = 0#64 := BitVec.mul_zero

/-- R82: equal words cancel in `u ^ v`, so that `a = 0`. -/
theorem hashLen16_self (u mul : Word) : hashLen16 u u mul = shiftMix (u * mul) * mul := by
  have a_zero : shiftMix ((u ^^^ u) * mul) = 0#64 := by
    rw [BitVec.xor_self, BitVec.zero_mul, shiftMix_zero]
  rw [hashLen16_eq, a_zero, BitVec.xor_zero]

@[simp] theorem hashLen16_zero_zero (mul : Word) : hashLen16 0#64 0#64 mul = 0#64 := by
  rw [hashLen16_self, BitVec.zero_mul, shiftMix_zero, BitVec.zero_mul]

/-- R82: a multiplier of 1 leaves the two shift-mixes. -/
theorem hashLen16_mul_one (u v : Word) : hashLen16 u v 1#64 = shiftMix (v ^^^ shiftMix (u ^^^ v)) := by
  rw [hashLen16_eq, BitVec.mul_one, BitVec.mul_one, BitVec.mul_one]

/-- R80: with words too short to fold and a multiplier of 1 the second `v` cancels the first and `u` is left. -/
theorem hashLen16_mul_one_of_lt {u v : Word} (hu : u.toNat < 2 ^ 47) (hv : v.toNat < 2 ^ 47) :
    hashLen16 u v 1#64 = u := by
  have huv : (u ^^^ v).toNat < 2 ^ 47 := by
    rw [BitVec.toNat_xor]
    exact Nat.xor_lt_two_pow hu hv
  have cancel : v ^^^ (u ^^^ v) = u := by
    rw [BitVec.xor_comm u v, ← BitVec.xor_assoc, BitVec.xor_self, BitVec.zero_xor]
  rw [hashLen16_mul_one, shiftMix_of_lt huv, cancel, shiftMix_of_lt hu]

/-- Settles O15: at a multiplier of 1, short words in either order give the first one (`hashLen16_mul_one_of_lt`), so
1 and 0 give 1 and 0 and 1 give 0. -/
theorem combinerFormulas : Obligations.CombinerFormulas := by
  refine ⟨fun u v mul => hashLen16_eq u v mul, ⟨1#64, 0#64, 1#64, ?asymmetric⟩, hash128to64_eq_hashLen16⟩
  rw [hashLen16_mul_one_of_lt (by decide) (by decide), hashLen16_mul_one_of_lt (by decide) (by decide)]
  decide

/-! ### The commands -/

/-- R82, R153: what HASHLEN16 changes, in any state. -/
theorem exec_hashlen16 (s : State) : exec .hashlen16 s
    = .next { s with res0 := hashLen16 s.opa s.opb s.opm, pending := none, status := 0x2#32 } := rfl

/-- R83, R153: what HASH128TO64 changes, in any state. -/
theorem exec_hash128to64 (s : State) : exec .hash128to64 s
    = .next { s with res0 := hash128to64 s.opa s.opb, pending := none, status := 0x2#32 } := rfl

/-- Settles O18: each corner case is the combiner's own equation; the worked example is evaluated. -/
theorem hashlen16Command : Obligations.Hashlen16Command :=
  ⟨decode_encode .hashlen16, exec_hashlen16, hashLen16_mul_zero, hashLen16_zero_zero, hashLen16_self,
    hashLen16_mul_one, by decide⟩

/-- Settles O19: HASHLEN16 with OPM = KMUL computes the same word (`hash128to64_eq_hashLen16`) and keeps its OPM, the
one register in which the two next states differ. -/
theorem hash128to64Command : Obligations.Hash128to64Command := by
  refine ⟨decode_encode .hash128to64, exec_hash128to64, hashLen16_zero_zero _, fun s => ⟨_, exec_hashlen16 _, ?_⟩,
    by decide⟩
  rw [exec_hash128to64, hash128to64_eq_hashLen16]

end Sys2Proof.Machine
end

section
/-! PROOFS. The length kernels (R90 to R96): the value of each band from its reads, and which bytes it reads. -/

namespace Sys2Proof.Machine

/-- R47, R48: a computation that reads exactly BUF[0..n) gives a value where every byte of it is written, and meets an
unwritten byte where one is not. -/
theorem ReadsExactly.ok_and_unwritten {α : Type} {r : Except ReadFail α} {i : Input}
    (h : ReadsExactly r (i.buf.Written 0 i.len)) :
    ((∀ a, a < i.len → ∃ b, i.buf.read a = some b) → ∃ v, r = .ok v)
      ∧ ((∃ a, a < i.len ∧ i.buf.read a = none) → r = .error .unwritten) := by
  refine ⟨fun w => h.ok ((written_iff _ _ _).2 fun a _ ha => w a (by omega)), ?_⟩
  rintro ⟨a, ha, none_at⟩
  exact h.unwritten ((not_written_iff _ _ _).2 ⟨a, by omega, by omega, none_at⟩)

/-! ### The dispatch on length (R90 to R94) -/

section
variable {i : Input}

theorem hashLen0to16_of_ge_8 (h : 8 ≤ i.len) : hashLen0to16 i = hashLen8to16 i :=
  if_pos h

theorem hashLen0to16_of_4to7 (h : 4 ≤ i.len) (h' : i.len ≤ 7) : hashLen0to16 i = hashLen4to7 i := by
  rw [hashLen0to16, if_neg (by omega), if_pos h]

theorem hashLen0to16_of_1to3 (h : 1 ≤ i.len) (h' : i.len ≤ 3) : hashLen0to16 i = hashLen1to3 i := by
  rw [hashLen0to16, if_neg (by omega), if_neg (by omega), if_pos h]

theorem hashLen0to16_of_len_zero (h : i.len = 0) : hashLen0to16 i = .ok K2 := by
  rw [hashLen0to16, if_neg (by omega), if_neg (by omega), if_neg (by omega)]

theorem topHash_of_le_16 (m : A33Mul) (h : i.len ≤ 16) : topHash m i = shortHash (hashLen0to16 i) :=
  if_pos h

theorem topHash_of_17to32 (m : A33Mul) (h : 17 ≤ i.len) (h' : i.len ≤ 32) :
    topHash m i = shortHash (hashLen17to32 i) := by
  rw [topHash, if_neg (by omega), if_pos h']

theorem topHash_of_33to64 (m : A33Mul) (h : 33 ≤ i.len) (h' : i.len ≤ 64) :
    topHash m i = shortHash (hashLen33to64 m i) := by
  rw [topHash, if_neg (by omega), if_neg (by omega), if_pos h']

theorem topHash_of_gt_64 (m : A33Mul) (h : 64 < i.len) : topHash m i = hashLong i := by
  rw [topHash, if_neg (by omega), if_neg (by omega), if_neg (by omega)]

end

theorem shortHash_ok (v : Word) : shortHash (.ok v) = .ok { value := v } := rfl

/-- Settles O24: one dispatch equation per band; the empty input takes the [0,16] kernel, which gives K2. -/
theorem dispatchOnLength : Obligations.DispatchOnLength := by
  refine fun m i => ⟨topHash_of_le_16 m, topHash_of_17to32 m, topHash_of_33to64 m, topHash_of_gt_64 m,
    fun h => ⟨{ value := K2 }, ?_, rfl⟩, ?_⟩
  · rw [topHash_of_le_16 m (by omega), hashLen0to16_of_len_zero h, shortHash_ok]
  · rintro _ v rfl
    exact ⟨{ value := v }, shortHash_ok v, rfl, rfl⟩

/-! ### The bands -/

/-- Settles O21: the reads are `hashLen0to16_reads`; in each sub-branch the kernel's lines are run on the values its
reads give. -/
theorem band0to16Kernel : Obligations.Band0to16Kernel := by
  refine ⟨fun i h => (hashLen0to16_reads h).ok_and_unwritten, ?from8to16, ?from4to7, ?from1to3,
    fun i h => hashLen0to16_of_len_zero h⟩
  case from8to16 =>
    intro i r0 b h _ first last
    simp only [hashLen0to16_of_ge_8 h, hashLen8to16, first, last]
    rfl
  case from4to7 =>
    intro i a b h h' first last
    simp only [hashLen0to16_of_4to7 h h', hashLen4to7, first, last]
    rfl
  case from1to3 =>
    intro i a b c h h' first middle last
    simp only [hashLen0to16_of_1to3 h h', hashLen1to3, read8_of_read (by omega) first,
      read8_of_read (by omega) middle, read8_of_read (by omega) last]
    rfl

/-- Settles O22: the reads are `hashLen17to32_reads`, and the kernel's lines are run on the values they give. -/
theorem band17to32Kernel : Obligations.Band17to32Kernel := by
  intro i h h'
  obtain ⟨written, unwritten⟩ := (hashLen17to32_reads h h').ok_and_unwritten
  refine ⟨written, unwritten, fun r0 b rc rd e0 e8 en8 en16 => ?_⟩
  simp only [hashLen17to32, e0, e8, en8, en16]
  rfl

/-- Settles O23: the reads are `hashLen33to64_reads`, and the kernel's lines are run on the values they give. -/
theorem band33to64Kernel : Obligations.Band33to64Kernel := by
  refine ⟨rfl, rfl, fun m i h h' => ?_⟩
  obtain ⟨written, unwritten⟩ := (hashLen33to64_reads m h h').ok_and_unwritten
  refine ⟨written, unwritten, fun r0 b rc rd re f rg rh e0 e8 en8 en16 e16 e24 en32 en24 => ?_⟩
  simp only [hashLen33to64, e0, e8, en8, en16, e16, e24, en32, en24]
  rfl

end Sys2Proof.Machine
end

section
/-! PROOFS. The commands that hash BUF[0..LEN) to RES0 (R97 to R100): their errors, their completions, the equality of
the band commands with HASH64, and the worked examples. -/

namespace Sys2Proof.Machine

/-! ### The errors (R141, R142) -/

theorem exec_of_gt_capacity {i : Instr} {s : State} (c : checksCapacity i = true)
    (h : s.len.toNat > s.cfg.bufBytes) : exec i s = .next (s.raiseError .lenCapacity) := by
  cases exec_outcome i s with
  | capacity _ _ e => exact e
  | band h' => omega
  | range _ h' => omega
  | runs h' => have := h' c; omega

theorem exec_of_not_inBand {i : Instr} {s : State} (h : s.len.toNat ≤ s.cfg.bufBytes)
    (b : inBand i s.len.toNat = false) : exec i s = .next (s.raiseError .lenBand) := by
  cases exec_outcome i s with
  | capacity _ h' => omega
  | band _ _ e => exact e
  | range w => subst w; cases b
  | runs _ b' => rw [b] at b'; cases b'

/-! ### The completions (R48, R153): a command that has passed its checks, on a kernel's value `r`. -/

section
variable {s : State} {i : Instr}

theorem exec_hash_of_ok {k : Bool} {r : Except ReadFail Hashed} {h : Hashed}
    (run : exec i s = complete s false k (hashWrites r)) (e : r = .ok h) :
    exec i s = .next (s.succeed { res0 := h.value, kernel := h.kernel }) := by
  rw [run, e]; rfl

theorem exec_short_of_ok {k : Bool} {r : Except ReadFail Word} {v : Word}
    (run : exec i s = complete s false k (hashWrites (shortHash r))) (e : r = .ok v) :
    exec i s = .next (s.succeed { res0 := v }) :=
  exec_hash_of_ok run (e ▸ shortHash_ok v)

theorem exec_hash_of_written {k : Bool} {r : Except ReadFail Hashed}
    (run : exec i s = complete s false k (hashWrites r)) (reads : ReadsExactly r (s.buf.Written 0 s.len.toNat))
    (w : s.InputWritten 0 s.len.toNat) :
    ∃ h, r = .ok h ∧ exec i s = .next (s.succeed { res0 := h.value, kernel := h.kernel }) := by
  obtain ⟨h, e⟩ := reads.ok ((inputWritten_len_iff s).1 w)
  exact ⟨h, e, exec_hash_of_ok run e⟩

theorem exec_short_of_written {k : Bool} {r : Except ReadFail Word}
    (run : exec i s = complete s false k (hashWrites (shortHash r)))
    (reads : ReadsExactly r (s.buf.Written 0 s.len.toNat)) (w : s.InputWritten 0 s.len.toNat) :
    ∃ v, r = .ok v ∧ exec i s = .next (s.succeed { res0 := v }) := by
  obtain ⟨v, e⟩ := reads.ok ((inputWritten_len_iff s).1 w)
  exact ⟨v, e, exec_short_of_ok run e⟩

theorem exec_hash_of_unwritten {k : Bool} {r : Except ReadFail Hashed}
    (run : exec i s = complete s false k (hashWrites r)) (reads : ReadsExactly r (s.buf.Written 0 s.len.toNat))
    (w : ¬ s.InputWritten 0 s.len.toNat) : exec i s = .next (s.completeUnspecified false k) := by
  rw [run, reads.unwritten (mt (inputWritten_len_iff s).2 w)]; rfl

/-! ### HASH64 and the band commands -/

/-- R97: a band command whose kernel is the dispatch's choice at this LEN does what HASH64 does, above the capacity
too. It holds on unwritten input as well, where the model's two runs draw the same free values (log entry 3); the
obligations do not ask for that. -/
theorem exec_eq_hash64 {r : Except ReadFail Hashed} {k : Bool} (c : checksCapacity i = true)
    (run : s.len.toNat ≤ s.cfg.bufBytes → exec i s = complete s false k (hashWrites r))
    (top : topHash s.cfg.a33 (operandInput s) = r) (long : decide (64 < s.len.toNat) = k) :
    exec i s = exec .hash64 s := by
  by_cases hc : s.len.toNat ≤ s.cfg.bufBytes
  · rw [run hc, exec_hash64_runs hc, top, long]
  · rw [exec_of_gt_capacity c (by omega), exec_of_gt_capacity rfl (by omega)]

theorem exec_hashlen0to16_eq_hash64 (h : s.len.toNat ≤ 16) : exec .hashlen0to16 s = exec .hash64 s :=
  exec_eq_hash64 rfl (fun hc => exec_hashlen0to16_runs hc h) (topHash_of_le_16 _ h) (decide_eq_false (by omega))

theorem exec_hashlen17to32_eq_hash64 (h : 17 ≤ s.len.toNat) (h' : s.len.toNat ≤ 32) :
    exec .hashlen17to32 s = exec .hash64 s :=
  exec_eq_hash64 rfl (fun hc => exec_hashlen17to32_runs hc h h') (topHash_of_17to32 _ h h')
    (decide_eq_false (by omega))

theorem exec_hashlen33to64_eq_hash64 (h : 33 ≤ s.len.toNat) (h' : s.len.toNat ≤ 64) :
    exec .hashlen33to64 s = exec .hash64 s :=
  exec_eq_hash64 rfl (fun hc => exec_hashlen33to64_runs hc h h') (topHash_of_33to64 _ h h')
    (decide_eq_false (by omega))

theorem exec_hashlong_eq_hash64 (h : 65 ≤ s.len.toNat) : exec .hashlong s = exec .hash64 s :=
  exec_eq_hash64 rfl (fun hc => exec_hashlong_runs hc h) (topHash_of_gt_64 _ h) (decide_eq_true h)

/-- R94, R98: the empty input. -/
theorem exec_hashlen0to16_of_len_zero (h : s.len = 0) :
    exec .hashlen0to16 s = .next (s.succeed { res0 := K2 }) := by
  have len : s.len.toNat = 0 := congrArg BitVec.toNat h
  exact exec_short_of_ok (exec_hashlen0to16_runs (by omega) (by omega)) (hashLen0to16_of_len_zero len)

end

/-- Runs that end alike, from states that differ in BUF alone, end in states that differ in BUF alone. -/
theorem EndsAlike.setBuf {r1 : Bool} {s t : State} {b : Memory} {o : Host.Outcome State Fault Refusal}
    (h : EndsAlike r1 s (s.setBuf b) (.next t) o) : o = .next (t.setBuf b) := by
  cases h <;> rfl

/-- R97: bytes of BUF from LEN up do not affect HASH64. -/
theorem exec_hash64_setBuf {s t : State} {b : Memory} (same : ∀ a, a < s.len.toNat → b.read a = s.buf.read a)
    (h : exec .hash64 s = .next t) : exec .hash64 (s.setBuf b) = .next (t.setBuf b) := by
  have operands : sameOperands .hash64 s (s.setBuf b) := ⟨rfl, rfl, fun a _ ha => (same a ha).symm⟩
  have alike := exec_endsAlike operands
  rw [h] at alike
  exact alike.setBuf

/-! ### Worked examples: a state that holds given bytes hashes as the concrete input of these bytes does -/

/-- The input that holds the bytes `bs` and nothing else. -/
def bytesInput (bs : List Byte) : Input := { buf := Memory.writeBytes [] 0 bs, len := bs.length }

/-- The bytes 0, 1, and so on, `n` of them: `pat(n)` of 95_test_vectors.md. -/
def countingBytes (n : Nat) : List Byte := (List.range n).map (BitVec.ofNat 8)

theorem same_bytesInput {i : Input} {bs : List Byte} (len : i.len = bs.length)
    (bytes : ∀ a, a < bs.length → i.buf.read a = bs[a]?) : i.Same (bytesInput bs) := by
  refine ⟨len, fun a ha => ?_⟩
  have below : a < bs.length := len ▸ ha
  rw [bytes a below, bytesInput, Memory.read_writeBytes, if_pos (by omega), Nat.sub_zero]

theorem same_countingBytes {i : Input} {n : Nat} (len : i.len = n)
    (bytes : ∀ a, a < n → i.buf.read a = some (BitVec.ofNat 8 a)) : i.Same (bytesInput (countingBytes n)) := by
  have length : (countingBytes n).length = n := by simp [countingBytes]
  refine same_bytesInput (len.trans length.symm) fun a ha => ?_
  have below : a < n := length ▸ ha
  rw [bytes a below, countingBytes, List.getElem?_map, List.getElem?_range below, Option.map_some]

theorem hashLen0to16_abc : hashLen0to16 (bytesInput [0x61, 0x62, 0x63]) = .ok 0x24A5B3A074E7F369#64 := by decide

theorem hashLen17to32_counting17 : hashLen17to32 (bytesInput (countingBytes 17)) = .ok 0xBBB6A6F8F20D1F1C#64 := by
  decide

theorem hashLen33to64_k1_counting33 :
    hashLen33to64 .k1 (bytesInput (countingBytes 33)) = .ok 0x4AE0646E131EC9AC#64 := by decide

theorem hashLen33to64_k2_counting33 :
    hashLen33to64 .k2 (bytesInput (countingBytes 33)) = .ok 0xE8756EC1CB75524E#64 := by decide

/-- R97: the input "abc". -/
theorem exec_hash64_abc {s : State} (hl : s.len = 3) (hc : 3 ≤ s.cfg.bufBytes) (h0 : s.buf.read 0 = some 0x61)
    (h1 : s.buf.read 1 = some 0x62) (h2 : s.buf.read 2 = some 0x63) :
    exec .hash64 s = .next (s.succeed { res0 := 0x24A5B3A074E7F369#64 }) := by
  have len : s.len.toNat = 3 := congrArg BitVec.toNat hl
  have same : (operandInput s).Same (bytesInput [0x61, 0x62, 0x63]) :=
    same_bytesInput len fun
      | 0, _ => h0
      | 1, _ => h1
      | 2, _ => h2
  rw [← exec_hashlen0to16_eq_hash64 (by omega)]
  exact exec_short_of_ok (exec_hashlen0to16_runs (by omega) (by omega)) (same.hashLen0to16.trans hashLen0to16_abc)

/-- R99: the worked example of 17 bytes. -/
theorem exec_hashlen17to32_counting17 {s : State} (hl : s.len = 17) (hc : 17 ≤ s.cfg.bufBytes)
    (bytes : ∀ a, a < 17 → s.buf.read a = some (BitVec.ofNat 8 a)) :
    exec .hashlen17to32 s = .next (s.succeed { res0 := 0xBBB6A6F8F20D1F1C#64 }) := by
  have len : s.len.toNat = 17 := congrArg BitVec.toNat hl
  have same : (operandInput s).Same (bytesInput (countingBytes 17)) := same_countingBytes len bytes
  exact exec_short_of_ok (exec_hashlen17to32_runs (by omega) (by omega) (by omega))
    (same.hashLen17to32.trans hashLen17to32_counting17)

/-- R100: the worked example of 33 bytes, whose word `v` is A33_MUL's. -/
theorem exec_hashlen33to64_counting33 {s : State} {v : Word} (hl : s.len = 33) (hc : 33 ≤ s.cfg.bufBytes)
    (bytes : ∀ a, a < 33 → s.buf.read a = some (BitVec.ofNat 8 a))
    (value : hashLen33to64 s.cfg.a33 (bytesInput (countingBytes 33)) = .ok v) :
    exec .hashlen33to64 s = .next (s.succeed { res0 := v }) := by
  have len : s.len.toNat = 33 := congrArg BitVec.toNat hl
  have same : (operandInput s).Same (bytesInput (countingBytes 33)) := same_countingBytes len bytes
  exact exec_short_of_ok (exec_hashlen33to64_runs (by omega) (by omega) (by omega))
    ((same.hashLen33to64 s.cfg.a33).trans value)

/-! ### The commands -/

/-- Settles O30: the errors and completions are those of every hashing command; the empty input and the bands are the
band commands' (`exec_eq_hash64`), and bytes from LEN up are no operand (`exec_hash64_setBuf`). -/
theorem hash64Command : Obligations.Hash64Command := by
  refine ⟨decode_encode .hash64, fun s => exec_of_gt_capacity rfl, fun s hc w => ?written, fun s hc w => ?unwritten,
    fun s h => ?empty, fun s _ _ => ?bands, fun s t b same _ h => exec_hash64_setBuf same h,
    fun s => exec_hash64_abc⟩
  case written =>
    exact exec_hash_of_written (exec_hash64_runs hc) (hash_reads s.cfg.a33 (operandInput s)) w
  case unwritten =>
    exact ⟨_, exec_hash_of_unwritten (exec_hash64_runs hc) (hash_reads s.cfg.a33 (operandInput s)) w, rfl⟩
  case empty =>
    have len : s.len.toNat = 0 := congrArg BitVec.toNat h
    exact (exec_hashlen0to16_eq_hash64 (by omega)).symm.trans (exec_hashlen0to16_of_len_zero h)
  case bands =>
    exact ⟨fun h => (exec_hashlen0to16_eq_hash64 h).symm, fun h h' => (exec_hashlen17to32_eq_hash64 h h').symm,
      fun h h' => (exec_hashlen33to64_eq_hash64 h h').symm, fun h => (exec_hashlong_eq_hash64 h).symm⟩

/-- Settles O31: in band the kernel's reads are `hashLen0to16_reads`, out of band the command answers
`exec_of_not_inBand`. -/
theorem hashlen0to16Command : Obligations.Hashlen0to16Command := by
  have reads {s : State} (h : s.len.toNat ≤ 16) := hashLen0to16_reads (i := operandInput s) h
  refine ⟨decode_encode .hashlen0to16, fun s => exec_of_gt_capacity rfl,
    fun s hc h => exec_of_not_inBand hc ?outside, fun s hc h w => ?written, fun s hc h w => ?unwritten,
    fun s h _ => exec_hashlen0to16_eq_hash64 h, fun s => exec_hashlen0to16_of_len_zero⟩
  case outside => simp only [inBand, decide_eq_false_iff_not]; omega
  case written => exact exec_short_of_written (exec_hashlen0to16_runs hc h) (reads h) w
  case unwritten =>
    exact ⟨_, exec_hash_of_unwritten (exec_hashlen0to16_runs hc h) (shortHash_reads (reads h)) w, rfl⟩

/-- Settles O32: in band the kernel's reads are `hashLen17to32_reads`, out of band the command answers
`exec_of_not_inBand`. -/
theorem hashlen17to32Command : Obligations.Hashlen17to32Command := by
  have reads {s : State} (h : 17 ≤ s.len.toNat) (h' : s.len.toNat ≤ 32) :=
    hashLen17to32_reads (i := operandInput s) h h'
  refine ⟨decode_encode .hashlen17to32, fun s => exec_of_gt_capacity rfl,
    fun s hc h => exec_of_not_inBand hc ?outside, fun s hc h h' w => ?written, fun s hc h h' w => ?unwritten,
    fun s h h' _ => exec_hashlen17to32_eq_hash64 h h', fun s => exec_hashlen17to32_counting17⟩
  case outside => simp only [inBand, Bool.and_eq_false_iff, decide_eq_false_iff_not]; omega
  case written => exact exec_short_of_written (exec_hashlen17to32_runs hc h h') (reads h h') w
  case unwritten =>
    exact ⟨_, exec_hash_of_unwritten (exec_hashlen17to32_runs hc h h') (shortHash_reads (reads h h')) w, rfl⟩

/-- Settles O33: as O32, with `hashLen33to64_reads`; the worked example is one evaluation for each A33_MUL. -/
theorem hashlen33to64Command : Obligations.Hashlen33to64Command := by
  have reads {s : State} (h : 33 ≤ s.len.toNat) (h' : s.len.toNat ≤ 64) :=
    hashLen33to64_reads (i := operandInput s) s.cfg.a33 h h'
  refine ⟨decode_encode .hashlen33to64, fun s => exec_of_gt_capacity rfl,
    fun s hc h => exec_of_not_inBand hc ?outside, fun s hc h h' w => ?written, fun s hc h h' w => ?unwritten,
    fun s h h' _ => exec_hashlen33to64_eq_hash64 h h', fun s hl hc bytes => ?worked⟩
  case outside => simp only [inBand, Bool.and_eq_false_iff, decide_eq_false_iff_not]; omega
  case written => exact exec_short_of_written (exec_hashlen33to64_runs hc h h') (reads h h') w
  case unwritten =>
    exact ⟨_, exec_hash_of_unwritten (exec_hashlen33to64_runs hc h h') (shortHash_reads (reads h h')) w, rfl⟩
  case worked =>
    refine exec_hashlen33to64_counting33 hl hc bytes ?_
    cases s.cfg.a33 with
    | k1 => exact hashLen33to64_k1_counting33
    | k2 => exact hashLen33to64_k2_counting33

end Sys2Proof.Machine
end

section
/-! PROOFS. The weak-32-byte block mixer (R110, R111) and WEAKHASH32 (R112). -/

namespace Sys2Proof.Machine

/-! ### The mixer -/

/-- R111: the buffer form is the word form of the four words it reads. -/
theorem weakHash32_of_reads {i : Input} {o : Nat} {w x y z : Word} (a b : Word) (hw : read64 i o = .ok w)
    (hx : read64 i (o + 8) = .ok x) (hy : read64 i (o + 16) = .ok y) (hz : read64 i (o + 24) = .ok z) :
    weakHash32 i o a b = .ok (weakHash32Words w x y z a b) := by
  rw [weakHash32, hw, hx, hy, hz]; rfl

/-- Settles O25: the word form is the definition; over the buffer the reads are `weakHash32_reads`, and the value is
`weakHash32_of_reads`. -/
theorem weakHashKernel : Obligations.WeakHashKernel := by
  refine ⟨fun w x y z a b => rfl, fun i o a b h => ⟨fun written => ?written, fun unwritten => ?unwritten,
    fun w x y z => weakHash32_of_reads a b⟩⟩
  case written => exact (weakHash32_reads a b h).ok ((written_iff _ _ _).2 written)
  case unwritten => exact (weakHash32_reads a b h).unwritten ((not_written_iff _ _ _).2 unwritten)

/-- R112: the second addition to `a` comes after `c` is saved, so the first word is the plain sum. -/
theorem weakHash32Words_fst (w x y z a b : Word) : (weakHash32Words w x y z a b).1 = a + w + x + y + z := rfl

/-- R112: an all-zero block with zero seeds. -/
theorem weakHash32Words_zero : weakHash32Words 0 0 0 0 0 0 = (0, 0) := by decide

theorem weakHash32_counting64 : weakHash32 (bytesInput (countingBytes 64)) 0 0 0
    = .ok (0x4C4844403C383430#64, 0x5A18D816D595D492#64) := by decide

/-! ### The command -/

section
variable {s : State}

/-- R112, R142: OFF_RANGE comes after LEN_CAPACITY, and OFF + 32 is compared as an exact integer. -/
theorem exec_weakhash32_of_gt_len (hc : s.len.toNat ≤ s.cfg.bufBytes) (h : s.off.toNat + 32 > s.len.toNat) :
    exec .weakhash32 s = .next (s.raiseError .offRange) := by
  cases exec_outcome .weakhash32 s with
  | capacity _ h' => omega
  | band _ b => cases b
  | range _ _ _ e => exact e
  | runs _ _ r => have := r rfl; omega

theorem exec_weakhash32_of_ok {p : Word × Word} (hc : s.len.toNat ≤ s.cfg.bufBytes)
    (h : s.off.toNat + 32 ≤ s.len.toNat) (e : weakHash32 (operandInput s) s.off.toNat s.opa s.opb = .ok p) :
    exec .weakhash32 s = .next (s.succeed { res0 := p.1, res1 := some p.2 }) := by
  have writes : weakHashWrites s = .ok { res0 := p.1, res1 := some p.2 } := by
    rw [weakHashWrites, operandOffset, operandSeedA, operandSeedB, e]; rfl
  rw [exec_weakhash32_runs hc h, writes]; rfl

theorem exec_weakhash32_of_unwritten (hc : s.len.toNat ≤ s.cfg.bufBytes) (h : s.off.toNat + 32 ≤ s.len.toNat)
    (w : ¬ s.InputWritten s.off.toNat (s.off.toNat + 32)) :
    exec .weakhash32 s = .next (s.completeUnspecified true false) := by
  rw [exec_weakhash32_runs hc h, (weakHashWrites_reads h).unwritten (mt (inputWritten_iff _ _ _).2 w)]; rfl

/-- R112: the worked example. -/
theorem exec_weakhash32_counting64 (hl : s.len = 64) (hc : 64 ≤ s.cfg.bufBytes) (ho : s.off = 0) (ha : s.opa = 0)
    (hb : s.opb = 0) (bytes : ∀ a, a < 64 → s.buf.read a = some (BitVec.ofNat 8 a)) :
    exec .weakhash32 s
      = .next (s.succeed { res0 := 0x4C4844403C383430#64, res1 := some 0x5A18D816D595D492#64 }) := by
  have len : s.len.toNat = 64 := congrArg BitVec.toNat hl
  have off : s.off.toNat = 0 := congrArg BitVec.toNat ho
  have same : (operandInput s).Same (bytesInput (countingBytes 64)) := same_countingBytes len bytes
  have value : weakHash32 (operandInput s) s.off.toNat s.opa s.opb
      = .ok (0x4C4844403C383430#64, 0x5A18D816D595D492#64) := calc
    _ = weakHash32 (operandInput s) 0 0 0 := by rw [off, ha, hb]
    _ = weakHash32 (bytesInput (countingBytes 64)) 0 0 0 :=
      weakHash32_congr 0 0 same.len fun x _ hx => same.bytes x (show x < s.len.toNat by omega)
    _ = _ := weakHash32_counting64
  exact exec_weakhash32_of_ok (by omega) (by omega) value

end

/-- Settles O35: the two errors are `exec_of_gt_capacity` and `exec_weakhash32_of_gt_len`; in range the mixer's reads
(`weakHash32_reads`) say whether the command writes the pair or completes as R48 says. -/
theorem weakhash32Command : Obligations.Weakhash32Command := by
  refine ⟨decode_encode .weakhash32, fun s => exec_of_gt_capacity rfl, fun s => exec_weakhash32_of_gt_len,
    fun s hc h w => ?written, fun s hc h w => ⟨_, exec_weakhash32_of_unwritten hc h w, rfl⟩, weakHash32Words_zero,
    weakHash32Words_fst, fun s => exec_weakhash32_counting64⟩
  case written =>
    obtain ⟨p, e⟩ := (weakHash32_reads (i := operandInput s) s.opa s.opb h).ok ((inputWritten_iff _ _ _).1 w)
    exact ⟨p, e, exec_weakhash32_of_ok hc h e⟩

end Sys2Proof.Machine
end

section
/-! PROOFS. The long-input kernel (R120 to R126): its initial state, one stride, the tail preparation, the whole run;
and HASHLONG (R127). -/

namespace Sys2Proof.Machine

/-! ### Before any stride (R120) -/

/-- Settles O26: the three constants are evaluated; the first word is added to `x` and nothing else depends on it. -/
theorem longKernelInitialState : Obligations.LongKernelInitialState := by
  have x_const : (81 : Word) * K2 = 0x01529CBA0CA458FF#64 := by decide
  have y_const : (81 : Word) * K1 + 113 = 0x226BB95B4E64B6D4#64 := by decide
  have z_const : shiftMix (0x226BB95B4E64B6D4#64 * K2 + 113) * K2 = 0x134A747F856D0526#64 := by decide
  refine ⟨fun r => ?_, x_const, y_const, z_const⟩
  simp only [kernelInit, x_const, y_const, z_const]

/-! ### One stride (R122) -/

/-- Settles O27: the reads are `stride_reads`; on the eight words of the block the two mixers are their word forms
(`weakHash32_of_reads`), and the other lines are the stride's own. -/
theorem strideUpdate : Obligations.StrideUpdate := by
  refine fun i o m t k h => ⟨fun written => ?written, fun unwritten => ?unwritten, ?update⟩
  case written => exact (stride_reads m t k h).ok ((written_iff _ _ _).2 written)
  case unwritten => exact (stride_reads m t k h).unwritten ((not_written_iff _ _ _).2 unwritten)
  case update =>
    intro q0 q1 q2 q3 q4 q5 q6 q7 e0 e1 e2 e3 e4 e5 e6 e7
    have low (a b : Word) : weakHash32 i o a b = .ok (weakHash32Words q0 q1 q2 q3 a b) :=
      weakHash32_of_reads a b e0 e1 e2 e3
    have high (a b : Word) : weakHash32 i (o + 32) a b = .ok (weakHash32Words q4 q5 q6 q7 a b) :=
      weakHash32_of_reads a b e4 e5 e6 e7
    simp only [stride, e1, e6, e5, e2, low, high]
    rfl

/-! ### The tail preparation (R123) -/

theorem toNat_and_255_shiftLeft_one (z : Word) : ((z &&& 0xFF) <<< 1).toNat = 2 * (z.toNat % 256) := by
  have low : (z &&& 0xFF).toNat = z.toNat % 256 := by
    rw [BitVec.toNat_and]
    exact Nat.and_two_pow_sub_one_eq_mod z.toNat 8
  rw [BitVec.toNat_shiftLeft, low, Nat.shiftLeft_eq]
  omega

/-- R123: the sum does not wrap, as K1 + 510 is below 2^64. -/
theorem toNat_tailMul (k : KernelState) : (tailMul k).toNat = 0xB492B66FBE98F273 + 2 * (k.z.toNat % 256) := by
  have base : K1.toNat = 0xB492B66FBE98F273 := rfl
  rw [tailMul, BitVec.toNat_add, toNat_and_255_shiftLeft_one, base]
  omega

/-- Settles O28: the range and the parity are read off the multiplier's number (`toNat_tailMul`); the preparation's
lines are the definition's own. -/
theorem tailPreparation : Obligations.TailPreparation := by
  intro n k _
  have number := toNat_tailMul k
  exact ⟨rfl, number, by omega, by omega, rfl⟩

/-! ### The whole run (R121, R126) -/

/-- R121: the loop has a stride, ends below `n`, and leaves at most the last 64 bytes to the tail pass. -/
theorem strideCount_bounds {n : Nat} (h : 65 ≤ n) :
    1 ≤ strideCount n ∧ 64 * strideCount n ≤ n - 1 ∧ n - 64 ≤ 64 * strideCount n := by
  unfold strideCount; omega

/-- R121: an exactly aligned last block is the tail pass's alone. -/
theorem strideCount_of_aligned {n : Nat} (h : 65 ≤ n) (aligned : n % 64 = 0) : 64 * strideCount n = n - 64 := by
  unfold strideCount; omega

/-- R121: the loop follows any chain of states in which each is the stride of the one before it. -/
theorem strides_of_chain {i : Input} {o : Nat} {first last : KernelState} {rest : List KernelState}
    (chain : ∀ (j : Nat) (a b : KernelState), (first :: rest)[j]? = some a → (first :: rest)[j + 1]? = some b →
      stride i (o + 64 * j) K1 false a = .ok b)
    (ends : (first :: rest).getLast? = some last) : strides i rest.length o first = .ok last := by
  induction rest generalizing o first with
  | nil => cases ends; rfl
  | cons next rest ih =>
    have head : stride i o K1 false first = .ok next := chain 0 first next rfl rfl
    have tail : strides i rest.length (o + 64) next = .ok last := by
      refine ih (fun j a b ha hb => ?_) (by rwa [List.getLast?_cons_cons] at ends)
      have shifted : o + 64 + 64 * j = o + 64 * (j + 1) := by omega
      exact shifted ▸ chain (j + 1) a b ha hb
    rw [List.length_cons, strides, head]
    exact tail

/-- R126: the kernel's value and KernelState from its first word, its loop and its tail pass. -/
theorem hashLong_of_run {i : Input} {first : Word} {k k' : KernelState} (start : read64 i 0 = .ok first)
    (loop : strides i (strideCount i.len) 0 (kernelInit first) = .ok k)
    (tail : stride i (i.len - 64) (tailMul k) true (tailPrepare i.len k) = .ok k') :
    hashLong i = .ok { value := finalCombine k' (tailMul k), kernel := some k' } := by
  simp only [hashLong, start, bind, Except.bind, loop, tail]

/-- Settles O29: the reads are `hashLong_reads`; a list of states that the hypotheses describe is a chain the loop
follows (`strides_of_chain`), and the kernel ends as its tail pass does (`hashLong_of_run`). -/
theorem longKernelRuns : Obligations.LongKernelRuns := by
  refine ⟨fun i h => (hashLong_reads h).ok_and_unwritten, fun n h => ?bounds, ?run⟩
  case bounds =>
    obtain ⟨some_stride, below, covers⟩ := strideCount_bounds h
    exact ⟨some_stride, below, covers, strideCount_of_aligned h⟩
  case run =>
    intro i first ks k k' _ start length init chain ends tail
    cases ks with
    | nil => cases init
    | cons k0 rest =>
      obtain rfl : k0 = kernelInit first := Option.some.inj init
      have count : rest.length = strideCount i.len := Nat.succ.inj length
      have loop : strides i (strideCount i.len) 0 (kernelInit first) = .ok k := by
        rw [← count]
        exact strides_of_chain (fun j a b ha hb => (Nat.zero_add (64 * j)).symm ▸ chain j a b ha hb) ends
      exact ⟨_, hashLong_of_run start loop tail, rfl, rfl⟩

/-! ### HASHLONG (R127) -/

/-- R127: the worked example, with KernelState after its tail pass (95_test_vectors.md section 2.6). -/
theorem hashLong_counting65 : hashLong (bytesInput (countingBytes 65)) = .ok
    { value := 0xC6A3282C3E793DBE#64
      kernel := some
        { x := 0x040E5F15C53DABF3, y := 0x932A2B6001ACF1D6, z := 0xF12B26152ABC0C42, v0 := 0x0A14AF1B5D5B02CB,
          v1 := 0xF1BC6BC019240AB9, w0 := 0x57553F0ACD24E856, w1 := 0xF007C7D7933DAF37 } } := by
  decide

/-- Settles O34: in band the kernel's reads are `hashLong_reads`, out of band the command answers `exec_of_not_inBand`;
the worked example holds the bytes of `hashLong_counting65`. -/
theorem hashlongCommand : Obligations.HashlongCommand := by
  have reads {s : State} (h : 65 ≤ s.len.toNat) := hashLong_reads (i := operandInput s) h
  refine ⟨decode_encode .hashlong, fun s => exec_of_gt_capacity rfl,
    fun s hc h => exec_of_not_inBand hc (decide_eq_false (by omega)),
    fun s hc h w => exec_hash_of_written (exec_hashlong_runs hc h) (reads h) w,
    fun s hc h w => ⟨_, exec_hash_of_unwritten (exec_hashlong_runs hc h) (reads h) w, rfl⟩,
    fun s h _ => exec_hashlong_eq_hash64 h, rfl, rfl, rfl, fun s hl hc bytes => ?worked⟩
  case worked =>
    have len : s.len.toNat = 65 := congrArg BitVec.toNat hl
    have same : (operandInput s).Same (bytesInput (countingBytes 65)) := same_countingBytes len bytes
    have value := same.hashLong.trans hashLong_counting65
    exact ⟨_, exec_hash_of_ok (exec_hashlong_runs (by omega) (by omega)) value, rfl⟩

end Sys2Proof.Machine
end

section
/-! PROOFS. The bucket reducer (R131, R132), and the commands BUCKET (R134) and HASHBUCKET (R135). -/

namespace Sys2Proof.Machine

/-! ### The absolute value (R131) -/

section
variable {h : Word}

theorem absVal_of_lt (lt : h.toNat < 2 ^ 63) : absVal h = h.toNat := by
  have reading : s64 h = h.toNat := if_pos lt
  rw [absVal, reading, if_pos (by omega), Int.toNat_natCast]

/-- R131: a negative reading is negated as a Word64, which does not wrap, as the word is not 0. -/
theorem absVal_of_ge (ge : 2 ^ 63 ≤ h.toNat) : absVal h = 2 ^ 64 - h.toNat := by
  have bound := h.isLt
  have reading : s64 h = (h.toNat : Int) - 2 ^ 64 := if_neg (by omega)
  rw [absVal, reading, if_neg (by omega), BitVec.toNat_neg]
  omega

theorem absVal_eq_natAbs (h : Word) : absVal h = h.toInt.natAbs := by
  have bound := h.isLt
  rw [BitVec.toInt_eq_toNat_cond]
  by_cases lt : h.toNat < 2 ^ 63
  · rw [absVal_of_lt lt, if_pos (by omega), Int.natAbs_natCast]
  · rw [absVal_of_ge (by omega), if_neg (by omega)]
    omega

theorem absVal_le (h : Word) : absVal h ≤ 2 ^ 63 := by
  by_cases lt : h.toNat < 2 ^ 63
  · rw [absVal_of_lt lt]; omega
  · rw [absVal_of_ge (by omega)]; omega

/-- R131: only the signed minimum reaches 2^63. -/
theorem le_absVal_iff : 2 ^ 63 ≤ absVal h ↔ h = 0x8000000000000000#64 := by
  have minimum : h = 0x8000000000000000#64 ↔ h.toNat = 2 ^ 63 := BitVec.toNat_inj.symm
  rw [minimum]
  by_cases lt : h.toNat < 2 ^ 63
  · rw [absVal_of_lt lt]; omega
  · rw [absVal_of_ge (by omega)]; omega

end

/-- Settles O36: the value on each side of 2^63 is `absVal_of_lt` and `absVal_of_ge`; the rest follows from
these two. -/
theorem absoluteValue : Obligations.AbsoluteValue :=
  fun h => ⟨absVal_eq_natAbs h, absVal_of_lt, absVal_of_ge, absVal_le h, le_absVal_iff⟩

/-! ### The bucket (R132) -/

theorem bucketOf_lt (c : Config) (h : Word) : bucketOf c h < c.buckets := Nat.mod_lt _ c.buckets_pos

/-- R132: a bucket is a Word64, as the modulus is one. -/
theorem toNat_wordOfNat_bucketOf (c : Config) (h : Word) : (wordOfNat (bucketOf c h)).toNat = bucketOf c h :=
  wordOfNat_toNat ((bucketOf_lt c h).trans c.buckets_lt)

theorem bucketOf_of_100 {c : Config} (hc : c.buckets = 100) (h : Word) : bucketOf c h = absVal h % 100 :=
  congrArg (absVal h % ·) hc

/-- Settles O37: a remainder of two natural numbers is their truncated signed remainder (`Int.ofNat_tmod`), and 2^63 has
the remainder 8 by 100. -/
theorem bucketOfAHash : Obligations.BucketOfAHash := by
  refine fun c h => ⟨rfl, bucketOf_lt c h, Int.ofNat_tmod (absVal h) c.buckets,
    fun hc => ⟨?range, fun minimum => ?minimum⟩⟩
  case range => have := bucketOf_lt c h; omega
  case minimum => rw [bucketOf_of_100 hc]; omega

/-! ### BUCKET (R134) -/

/-- R134, R153: what BUCKET changes, in any state. -/
theorem exec_bucket (s : State) : exec .bucket s
    = .next { s with res0 := wordOfNat (bucketOf s.cfg s.opa), pending := none, status := 0x2#32 } := rfl

/-- Settles O38: the bucket is below the modulus also as a word (`toNat_wordOfNat_bucketOf`); the corner cases are
evaluated at the modulus 100. -/
theorem bucketCommand : Obligations.BucketCommand := by
  refine ⟨decode_encode .bucket, exec_bucket, fun c h => ?below, fun c hc => ?corners⟩
  case below => exact (toNat_wordOfNat_bucketOf c h).trans_lt (bucketOf_lt c h)
  case corners =>
    simp only [bucketOf_of_100 hc]
    decide

/-! ### An input whose hash depends on A33_MUL, at each length of the band [33,64] (R96) -/

/-- `n` bytes, the first one 1 and the others 0: the little-endian word at offset 0 is 1, every other word is 0. -/
def leadingOne (n : Nat) : Input := bytesInput (1 :: List.replicate (n - 1) 0)

section
variable {n : Nat}

theorem leadingOne_len (h : 1 ≤ n) : (leadingOne n).len = n := by
  simp only [leadingOne, bytesInput, List.length_cons, List.length_replicate]
  omega

theorem leadingOne_read_zero : (leadingOne n).buf.read 0 = some 1 := by
  rw [leadingOne, bytesInput, Memory.read_writeBytes, if_pos (by simp)]
  rfl

theorem leadingOne_read_pos {a : Nat} (pos : 1 ≤ a) (h : a < n) : (leadingOne n).buf.read a = some 0 := by
  obtain ⟨k, rfl⟩ : ∃ k, a = k + 1 := ⟨a - 1, by omega⟩
  rw [leadingOne, bytesInput, Memory.read_writeBytes, if_pos (by simp; omega), Nat.sub_zero, List.getElem?_cons_succ,
    List.getElem?_replicate_of_lt (by omega)]

theorem readBytes_zeros {i : Input} {o k : Nat} (zeros : ∀ a, o ≤ a → a < o + k → i.buf.read a = some 0) :
    readBytes i o k = .ok (List.replicate k 0) := by
  induction k generalizing o with
  | zero => rfl
  | succ k ih => exact readBytes_cons (zeros o le_rfl (by omega)) (ih fun a h h' => zeros a (by omega) (by omega))

theorem leadingOne_read64_zero (h : 8 ≤ n) : read64 (leadingOne n) 0 = .ok 1 := by
  have zeros : readBytes (leadingOne n) 1 7 = .ok (List.replicate 7 0) :=
    readBytes_zeros fun a pos ha => leadingOne_read_pos pos (by omega)
  exact read64_of_readBytes (by rw [leadingOne_len (by omega)]; omega) (readBytes_cons leadingOne_read_zero zeros)

theorem leadingOne_read64_pos {o : Nat} (pos : 1 ≤ o) (h : o + 8 ≤ n) : read64 (leadingOne n) o = .ok 0 := by
  have zeros : readBytes (leadingOne n) o 8 = .ok (List.replicate 8 0) :=
    readBytes_zeros fun a _ ha => leadingOne_read_pos (by omega) (by omega)
  exact read64_of_readBytes (by rw [leadingOne_len (by omega)]; omega) zeros

/-- The kernel's value on `leadingOne`, from the word `a` of A33_MUL and the multiplier `mul` of the length. -/
def leadingOneHash (a mul : Word) : Word :=
  let y := rotr a 43
  let z := hashLen16 y (a + rotr K2 18) mul
  hashLen16 (rotr (y * mul) 30 + z * mul) (rotr a 18 + y * mul) mul

theorem hashLen33to64_leadingOne (m : A33Mul) (h : 33 ≤ n) :
    hashLen33to64 m (leadingOne n) = .ok (leadingOneHash (a33Word m) (lengthMul n)) := by
  have rotr_zero (k : Word) : rotr 0#64 k = 0#64 := rotr_of_bits_alike (fun _ _ => BitVec.getLsbD_zero) k
  simp (disch := omega) only [hashLen33to64, leadingOne_len, leadingOne_read64_zero, leadingOne_read64_pos]
  simp [bind, Except.bind, leadingOneHash, rotr_zero]

end

theorem leadingOneHash_k1_ne_k2 :
    ∀ n < 65, 33 ≤ n → leadingOneHash K1 (lengthMul n) ≠ leadingOneHash K2 (lengthMul n) := by
  decide

/-- R135: at each length of the band the two multipliers of A33_MUL give `leadingOne` two hashes. -/
theorem topHash_k1_ne_k2_leadingOne {n : Nat} (h : 33 ≤ n) (h' : n ≤ 64) :
    topHash .k1 (leadingOne n) ≠ topHash .k2 (leadingOne n) := by
  have len := leadingOne_len (show 1 ≤ n by omega)
  rw [topHash_of_33to64 _ (by omega) (by omega), topHash_of_33to64 _ (by omega) (by omega),
    hashLen33to64_leadingOne .k1 h, hashLen33to64_leadingOne .k2 h, shortHash_ok, shortHash_ok]
  exact fun e => leadingOneHash_k1_ne_k2 n (by omega) h (congrArg Hashed.value (Except.ok.inj e))

/-! ### HASHBUCKET (R135) -/

section
variable {s : State}

theorem topHash_of_written (w : s.InputWritten 0 s.len.toNat) : ∃ h, topHash s.cfg.a33 (operandInput s) = .ok h :=
  (hash_reads s.cfg.a33 (operandInput s)).ok ((inputWritten_len_iff s).1 w)

theorem bucketHash_of_topHash {c : Config} {i : Input} {h : Hashed} (e : topHash c.a33 i = .ok h) :
    bucketHash c i = .ok (bucketOf c h.value) := by
  rw [bucketHash, e]; rfl

theorem exec_hashbucket_of_ok {h : Hashed} (hc : s.len.toNat ≤ s.cfg.bufBytes)
    (e : topHash s.cfg.a33 (operandInput s) = .ok h) :
    exec .hashbucket s = .next (s.succeed
      { res0 := wordOfNat (bucketOf s.cfg h.value), res1 := some h.value, kernel := h.kernel }) := by
  rw [exec_hashbucket_runs hc, e]; rfl

theorem exec_hashbucket_of_unwritten (hc : s.len.toNat ≤ s.cfg.bufBytes) (w : ¬ s.InputWritten 0 s.len.toNat) :
    exec .hashbucket s = .next (s.completeUnspecified true (64 < s.len.toNat)) := by
  have unwritten := (hash_reads s.cfg.a33 (operandInput s)).unwritten (mt (inputWritten_len_iff s).2 w)
  rw [exec_hashbucket_runs hc, unwritten]; rfl

/-- R135: at 100 buckets, HASHBUCKET on a hash whose absolute value leaves the remainder `b`, from a kernel that leaves
KernelState as it is. -/
theorem exec_hashbucket_of_100 {v : Word} {b : Nat} (hc : s.len.toNat ≤ s.cfg.bufBytes)
    (buckets : s.cfg.buckets = 100) (e : topHash s.cfg.a33 (operandInput s) = .ok { value := v })
    (bucket : absVal v % 100 = b) :
    exec .hashbucket s = .next (s.succeed { res0 := wordOfNat b, res1 := some v }) := by
  rw [exec_hashbucket_of_ok hc e, bucketOf_of_100 buckets, bucket]

end

/-- R135: the empty input hashes to K2. -/
theorem topHash_of_len_zero (m : A33Mul) {i : Input} (h : i.len = 0) : topHash m i = .ok { value := K2 } := by
  rw [topHash_of_le_16 m (by omega), hashLen0to16_of_len_zero h, shortHash_ok]

/-- R130: the payload of the identifier "abc123", 21 bytes. -/
def abc123Payload : List Byte := payload defaultSalt [0x61, 0x62, 0x63, 0x31, 0x32, 0x33]

/-- R135: the payload's length is outside the band of A33_MUL, so its hash is the same for both values. -/
theorem topHash_abc123 (m : A33Mul) :
    topHash m (bytesInput abc123Payload) = .ok { value := 0xF83D270C38F56B98#64 } := by
  have kernel : hashLen17to32 (bytesInput abc123Payload) = .ok 0xF83D270C38F56B98#64 := by decide
  rw [topHash_of_17to32 m (by decide) (by decide), kernel, shortHash_ok]

/-- Settles O39: on written input the command writes the hash (`topHash_of_written`) and its bucket, the words HASH64
and BUCKET write; `leadingOne` is the input whose hash depends on A33_MUL. -/
theorem hashbucketCommand : Obligations.HashbucketCommand := by
  refine ⟨decode_encode .hashbucket, fun s => exec_of_gt_capacity rfl, fun s hc w => ?written,
    fun s hc w => ⟨_, exec_hashbucket_of_unwritten hc w, rfl⟩, fun s t hc w run => ?parts,
    fun s hl buckets => ?empty, fun n h h' => ?a33, fun s hl hc buckets bytes => ?worked⟩
  case written =>
    obtain ⟨h, e⟩ := topHash_of_written w
    exact ⟨h, e, bucketHash_of_topHash e, exec_hashbucket_of_ok hc e⟩
  case parts =>
    obtain ⟨h, e⟩ := topHash_of_written w
    rw [exec_hashbucket_of_ok hc e] at run
    cases run
    exact ⟨_, _, exec_hash_of_ok (exec_hash64_runs hc) e, rfl, exec_bucket _, rfl⟩
  case empty =>
    have len : s.len.toNat = 0 := congrArg BitVec.toNat hl
    exact exec_hashbucket_of_100 (by omega) buckets (topHash_of_len_zero _ len) (by decide)
  case a33 => exact ⟨leadingOne n, leadingOne_len (by omega), topHash_k1_ne_k2_leadingOne h h'⟩
  case worked =>
    have len : s.len.toNat = 21 := congrArg BitVec.toNat hl
    have same : (operandInput s).Same (bytesInput abc123Payload) := same_bytesInput len bytes
    exact exec_hashbucket_of_100 (by omega) buckets ((same.topHash _).trans (topHash_abc123 _)) (by decide)

end Sys2Proof.Machine
end

section
/-! PROOFS. Errors: what an error changes and what the next CMD write does (R143), and which error a command word ends
with (R141, R142). -/

namespace Sys2Proof.Machine

/-! ### The effect of an error (R143) -/

theorem errCodeValue_cases (c : ErrCode) :
    errCodeValue c = 1 ∨ errCodeValue c = 2 ∨ errCodeValue c = 3 ∨ errCodeValue c = 4 := by
  cases c <;> decide

/-- Of the ways the core's step answers, only an error leaves ERR = 1. -/
theorem coreStep_eq_raiseError_of_err {w : Word32} {s t : State} (h : coreStep w s = .next t)
    (err : statusErr t.status = true) : ∃ c, t = s.raiseError c := by
  have success : statusErr statusSuccess = false := by decide
  rcases coreStep_cases w s with ⟨x, e⟩ | ⟨c, e⟩ | ⟨r, k, e⟩ <;> rw [e] at h <;> cases h
  · rw [State.succeed_status, success] at err; cases err
  · exact ⟨c, rfl⟩
  · rw [State.completeUnspecified_status, success] at err; cases err

theorem unlessBusy_of_busy {s : State} (h : s.status.getLsbD 0 = true) (w : State) :
    s.unlessBusy w = s.recordFault .busyWrite :=
  if_pos h

/-- Settles O43: a step that ends with ERR = 1 is `State.raiseError` (`coreStep_eq_raiseError_of_err`), and a CMD write
is guarded by BUSY. -/
theorem errorEffect : Obligations.ErrorEffect := by
  refine ⟨fun w s t h err => ?error, fun s v idle => ?issue, fun s v busy => ?nested⟩
  case error =>
    obtain ⟨c, rfl⟩ := coreStep_eq_raiseError_of_err h err
    obtain ⟨busy, done, -, code, -⟩ := statusError_fields c
    exact ⟨errCodeValue c, errCodeValue_cases c, busy, done, code, rfl⟩
  case issue => exact (hostWrite_reg s .cmd v).trans (unlessBusy_of_idle idle _)
  case nested => exact (hostWrite_reg s .cmd v).trans (unlessBusy_of_busy busy _)

/-! ### The first check that fails (R141, R142) -/

/-- R142: the error of a legal command, its checks in their order. It looks at LEN, OFF and the capacity only. -/
def commandError (i : Instr) (s : State) : Option ErrCode :=
  if checksCapacity i = true ∧ s.len.toNat > s.cfg.bufBytes then some .lenCapacity
  else if inBand i s.len.toNat = false then some .lenBand
  else if i = .weakhash32 ∧ s.off.toNat + 32 > s.len.toNat then some .offRange
  else none

/-- R142: the error of a command word. Illegality is checked first. -/
def wordError (w : Word32) (s : State) : Option ErrCode :=
  match decode w with
  | .ok i => commandError i s
  | .error _ => some .illegalCmd

section
variable {i : Instr} {s t : State} {w : Word32}

/-- A command with a band has an input in BUF, so its capacity check comes first. -/
theorem checksCapacity_of_not_inBand {n : Nat} (b : inBand i n = false) : checksCapacity i = true := by
  cases i with
  | hashlen0to16 | hashlen17to32 | hashlen33to64 | hashlong => rfl
  | rotr | shiftmix | hashlen16 | hash128to64 | hash64 | weakhash32 | bucket | hashbucket => cases b

theorem commandError_eq_lenCapacity_iff :
    commandError i s = some .lenCapacity ↔ checksCapacity i = true ∧ s.len.toNat > s.cfg.bufBytes := by
  unfold commandError
  split_ifs with capacity <;> simp [capacity]

theorem commandError_eq_lenBand_iff :
    commandError i s = some .lenBand ↔ inBand i s.len.toNat = false ∧ s.len.toNat ≤ s.cfg.bufBytes := by
  unfold commandError
  split_ifs with capacity band
  · simp [capacity.2]
  · have := mt (And.intro (checksCapacity_of_not_inBand band)) capacity
    simp [band, Nat.le_of_not_gt this]
  · simp [band]
  · simp [band]

theorem commandError_eq_offRange_iff : commandError i s = some .offRange ↔
    i = .weakhash32 ∧ s.off.toNat + 32 > s.len.toNat ∧ s.len.toNat ≤ s.cfg.bufBytes := by
  unfold commandError
  split_ifs with capacity band range
  · simp [capacity.2]
  · have : i ≠ .weakhash32 := by rintro rfl; cases band
    simp [this]
  · obtain ⟨rfl, past⟩ := range
    have := mt (And.intro (rfl : checksCapacity .weakhash32 = true)) capacity
    simp [past, Nat.le_of_not_gt this]
  · simp only [false_iff]
    exact fun ⟨weak, past, _⟩ => range ⟨weak, past⟩

theorem commandError_ne_illegalCmd : commandError i s ≠ some .illegalCmd := by
  unfold commandError
  split_ifs <;> simp

theorem commandError_eq_none (h : checksCapacity i = true → s.len.toNat ≤ s.cfg.bufBytes)
    (b : inBand i s.len.toNat = true) (r : i = .weakhash32 → s.off.toNat + 32 ≤ s.len.toNat) :
    commandError i s = none := by
  rw [commandError, if_neg fun ⟨c, gt⟩ => absurd (h c) (by omega), if_neg (by simp [b]),
    if_neg fun ⟨weak, past⟩ => absurd (r weak) (by omega)]

/-- A legal command ends with the error of its first failing check, and in success where none fails. -/
theorem exec_error_cases (i : Instr) (s : State) :
    (∃ c, commandError i s = some c ∧ exec i s = .next (s.raiseError c))
      ∨ commandError i s = none ∧ ∀ t, exec i s = .next t → t.status = statusSuccess := by
  cases exec_outcome i s with
  | capacity c h e => exact .inl ⟨_, commandError_eq_lenCapacity_iff.2 ⟨c, h⟩, e⟩
  | band h b e => exact .inl ⟨_, commandError_eq_lenBand_iff.2 ⟨b, h⟩, e⟩
  | range weak h r e => exact .inl ⟨_, commandError_eq_offRange_iff.2 ⟨weak, r, h⟩, e⟩
  | runs h b r run =>
    refine .inr ⟨commandError_eq_none h b r, fun t e => ?_⟩
    rcases run with ⟨-, x, e', -, -⟩ | ⟨-, e'⟩ <;> rw [e'] at e <;> cases e
    · exact State.succeed_status s x
    · exact State.completeUnspecified_status s _ _

/-- R141, R142: the core's step is `State.raiseError` of the word's error, and a success where it has none. -/
theorem coreStep_error_cases (w : Word32) (s : State) :
    (∃ c, wordError w s = some c ∧ coreStep w s = .next (s.raiseError c))
      ∨ wordError w s = none ∧ ∀ t, coreStep w s = .next t → t.status = statusSuccess := by
  unfold wordError coreStep
  cases decode w with
  | ok i => exact exec_error_cases i s
  | error x => exact .inl ⟨_, rfl, rfl⟩

theorem wordError_of_decode (d : decode w = .ok i) : wordError w s = commandError i s := by
  rw [wordError, d]

theorem wordError_eq_illegalCmd_iff : wordError w s = some .illegalCmd ↔ commandWordWf w = false := by
  rw [← decode_isError_iff, wordError]
  cases decode w with
  | ok i => simp [commandError_ne_illegalCmd]
  | error x => simp

theorem statusError_injective {c d : ErrCode} (h : statusError c = statusError d) : c = d := by
  revert h
  cases c <;> cases d <;> decide

/-- STATUS tells a word's error: it is an error's word exactly where `wordError` is that error. -/
theorem coreStep_status_eq_statusError_iff (h : coreStep w s = .next t) (c : ErrCode) :
    t.status = statusError c ↔ wordError w s = some c := by
  rcases coreStep_error_cases w s with ⟨d, we, e⟩ | ⟨we, success⟩
  · rw [e] at h
    cases h
    rw [we, Option.some_inj, State.raiseError_status]
    exact ⟨statusError_injective, congrArg statusError⟩
  · rw [we, success t h]
    simp only [(statusError_ne_success c).symm, reduceCtorEq]

theorem coreStep_eq_raiseError_of_wordError {c : ErrCode} (we : wordError w s = some c) :
    coreStep w s = .next (s.raiseError c) := by
  rcases coreStep_error_cases w s with ⟨d, we', e⟩ | ⟨none, -⟩
  · obtain rfl : d = c := Option.some.inj (we'.symm.trans we)
    exact e
  · rw [none] at we; cases we

theorem wordError_setBuf (w : Word32) (s : State) (b : Memory) : wordError w (s.setBuf b) = wordError w s := rfl

end

/-- Settles O44: STATUS is that of the word's error (`coreStep_status_eq_statusError_iff`), the first check that fails;
no check looks at BUF (`wordError_setBuf`), so with another BUF the step ends with the same error. -/
theorem errorCodesAndPriority : Obligations.ErrorCodesAndPriority := by
  intro w s t h
  have status := coreStep_status_eq_statusError_iff h
  refine ⟨(status .illegalCmd).trans wordError_eq_illegalCmd_iff, fun i d => ?legal, ?codes, fun failed => ?error⟩
  case legal =>
    rw [wordError_of_decode d] at status
    exact ⟨(status .lenCapacity).trans commandError_eq_lenCapacity_iff,
      (status .lenBand).trans commandError_eq_lenBand_iff, (status .offRange).trans commandError_eq_offRange_iff⟩
  case codes =>
    rcases coreStep_error_cases w s with ⟨c, we, -⟩ | ⟨-, success⟩
    · rw [(status c).2 we]
      cases c <;> decide
    · exact .inl (success t h)
  case error =>
    rcases coreStep_error_cases w s with ⟨c, we, e⟩ | ⟨-, success⟩
    · rw [e] at h
      cases h
      exact ⟨State.raiseError_faults s c, fun b =>
        coreStep_eq_raiseError_of_wordError ((wordError_setBuf w s b).trans we)⟩
    · exact absurd (success t h) failed

end Sys2Proof.Machine
end

section
/-! PROOFS. One step (R12, R153): whose turn it is, what the step of that turn is (R157 among them), and where a run
starts (R150, R151). -/

namespace Sys2Proof.Machine

section
variable {s : State} {w : Word32} {left : List Turn} {stmt : HostStmt}

/-! ### Whose turn it is (R12) -/

theorem State.withTurns_of_eq (h : s.turns = left) : s.withTurns left = s := by
  subst h; rfl

theorem coreMove_of_pending (p : s.pending = some w) (left : List Turn) : coreMove s left = .core w left := by
  simp only [coreMove, p]

theorem coreMove_of_not_pending (p : s.pending = none) (left : List Turn) : coreMove s left = .idle left := by
  simp only [coreMove, p]

theorem nextMove_of_no_turn (h : s.turns = []) : nextMove s = coreMove s [] := by
  simp only [nextMove, h]

theorem nextMove_of_core_turn (h : s.turns = .core :: left) : nextMove s = coreMove s left := by
  simp only [nextMove, h]

theorem nextMove_of_busy_wait (h : s.turns = .host .wait :: left) (busy : s.status.getLsbD 0 = true) :
    nextMove s = coreMove s (.host .wait :: left) := by
  simp only [nextMove, h]
  exact if_pos busy

/-- A host statement is its turn's move, but for a wait while BUSY = 1. -/
theorem nextMove_of_host_turn (h : s.turns = .host stmt :: left) (idle : stmt = .wait → s.status.getLsbD 0 = false) :
    nextMove s = .host stmt left := by
  cases stmt with
  | memRead | memWrite | reset => simp only [nextMove, h]
  | wait =>
    simp only [nextMove, h]
    exact if_neg (ne_true_of_eq_false (idle rfl))

theorem coreMove_ne_host (s : State) (l left : List Turn) (stmt : HostStmt) : coreMove s l ≠ .host stmt left := by
  unfold coreMove
  split <;> nofun

/-- Where the host moves, the turn was its own. -/
theorem turns_of_nextMove_host (h : nextMove s = .host stmt left) : s.turns = .host stmt :: left := by
  unfold nextMove at h
  split at h
  · exact absurd h (coreMove_ne_host _ _ _ _)
  · exact absurd h (coreMove_ne_host _ _ _ _)
  · next turns =>
    split_ifs at h
    · exact absurd h (coreMove_ne_host _ _ _ _)
    · cases h; exact turns
  all_goals next turns => cases h; exact turns

/-- Where no agent moves, no command is pending. -/
theorem pending_of_nextMove_idle (h : nextMove s = .idle left) : s.pending = none := by
  have core (l : List Turn) (h : coreMove s l = .idle left) : s.pending = none := by
    cases p : s.pending with
    | none => rfl
    | some w => rw [coreMove_of_pending p] at h; cases h
  unfold nextMove at h
  split at h
  · exact core _ h
  · exact core _ h
  · split_ifs at h
    exact core _ h
  all_goals cases h

/-! ### The step of each turn -/

theorem step_of_coreMove_pending (m : nextMove s = coreMove s left) (p : s.pending = some w) :
    step s = coreStep w (s.withTurns left) := by
  simp only [step, m, coreMove_of_pending p]

theorem step_of_coreMove_not_pending (m : nextMove s = coreMove s left) (p : s.pending = none) :
    step s = .next (s.withTurns left) := by
  simp only [step, m, coreMove_of_not_pending p]

/-- R157: a pending command completes when the turns have run out. -/
theorem step_of_no_turn (h : s.turns = []) (p : s.pending = some w) : step s = coreStep w s := by
  rw [step_of_coreMove_pending (nextMove_of_no_turn h) p, State.withTurns_of_eq h]

theorem step_of_core_turn (h : s.turns = .core :: left) (p : s.pending = some w) :
    step s = coreStep w (s.withTurns left) :=
  step_of_coreMove_pending (nextMove_of_core_turn h) p

/-- R65: a pending command completes where the host waits for it, and the wait is still to come. -/
theorem step_of_busy_wait (h : s.turns = .host .wait :: left) (busy : s.status.getLsbD 0 = true)
    (p : s.pending = some w) : step s = coreStep w s := by
  rw [step_of_coreMove_pending (nextMove_of_busy_wait h busy) p, State.withTurns_of_eq h]

theorem step_of_host_turn (h : s.turns = .host stmt :: left) (idle : stmt = .wait → s.status.getLsbD 0 = false) :
    step s = .next (hostStep (s.withTurns left) stmt) := by
  simp only [step, nextMove_of_host_turn h idle]

/-- With a command pending a step completes it or performs the host's next statement. -/
theorem step_of_pending (p : s.pending = some w) :
    (∃ left, step s = coreStep w (s.withTurns left))
      ∨ ∃ stmt left, s.turns = .host stmt :: left ∧ step s = .next (hostStep (s.withTurns left) stmt) := by
  rcases step_eq s with ⟨w', left, -, p', e⟩ | ⟨stmt, left, m, e⟩ | ⟨left, m, -⟩
  · obtain rfl : w' = w := Option.some.inj (p'.symm.trans p)
    exact .inl ⟨left, e⟩
  · exact .inr ⟨stmt, left, turns_of_nextMove_host m, e⟩
  · rw [pending_of_nextMove_idle m] at p; cases p

/-! ### The core's step on a legal and on an illegal word (R62, R153) -/

theorem coreStep_of_decode {i : Instr} (d : decode w = .ok i) (s : State) : coreStep w s = exec i s := by
  simp only [coreStep, d]

theorem coreStep_of_illegal (h : commandWordWf w = false) (s : State) :
    coreStep w s = .next (s.raiseError .illegalCmd) := by
  obtain ⟨e, d⟩ := decode_isError_iff.2 h
  simp only [coreStep, d, completeIllegal]

/-- A 32-bit number is the table's word of itself. -/
theorem tableWord_toNat (w : Word32) : tableWord 32 w.toNat = some w := by
  have bound := w.isLt
  rw [tableWord, Nat.mod_eq_of_lt bound, if_pos bound, BitVec.ofNat_toNat, BitVec.setWidth_eq]

theorem withFetchWord_toNat (s : State) (w : Word32) : s.withFetchWord 32 w.toNat = s.placeCommand w := by
  simp only [State.withFetchWord, tableWord_toNat]

theorem step_placeCommand (s : State) (w : Word32) : step (s.placeCommand w) = coreStep w (s.issue w) := by
  rw [step_of_core_turn (State.placeCommand_turns s w) (State.placeCommand_pending s w)]
  rfl

end

/-- Settles O4: in each of the three cases the move is the core's on the pending word (`step_of_no_turn`,
`step_of_core_turn`, `step_of_busy_wait`); a placed word is pending with the core's turn next (`step_placeCommand`). -/
theorem stepRunsTheDecodedCommand : Obligations.StepRunsTheDecodedCommand := by
  refine ⟨fun s w i p d => ⟨fun h => ?noTurn, fun left h => ?coreTurn, fun left h busy => ?wait⟩, fun s i _ => ?placed⟩
  case noTurn => exact (step_of_no_turn h p).trans (coreStep_of_decode d s)
  case coreTurn => exact (step_of_core_turn h p).trans (coreStep_of_decode d _)
  case wait => exact (step_of_busy_wait h busy p).trans (coreStep_of_decode d s)
  case placed =>
    rw [withFetchWord_toNat, step_placeCommand, coreStep_encode]
    rfl

/-- Settles O5: an illegal word's completion is the error entry with ILLEGAL_CMD (`coreStep_of_illegal`). -/
theorem illegalWordCompletesWithError : Obligations.IllegalWordCompletesWithError := by
  refine fun s w illegal => ⟨coreStep_of_illegal illegal s, fun p h => ?noTurn, fun left p h => ?coreTurn⟩
  case noTurn => exact (step_of_no_turn h p).trans (coreStep_of_illegal illegal s)
  case coreTurn => exact (step_of_core_turn h p).trans (coreStep_of_illegal illegal _)

/-- Settles O6: the host's statements are `step_of_host_turn`; with nothing pending the core's turn passes, and so does
a step with no turn. -/
theorem stepPerformsTheHostsTurn : Obligations.StepPerformsTheHostsTurn := by
  refine ⟨fun s left => ⟨fun a size h => step_of_host_turn h nofun, fun a size v h => step_of_host_turn h nofun,
    fun h idle => step_of_host_turn h fun _ => idle, fun h p => ?core⟩, fun s h p => ?idle⟩
  case core => exact step_of_coreMove_not_pending (nextMove_of_core_turn h) p
  case idle => rw [step_of_coreMove_not_pending (nextMove_of_no_turn h) p, State.withTurns_of_eq h]

/-! ### Reset (R150, R151) -/

/-- Settles O7: each register's value is the definition's own, and BUF lists no byte. -/
theorem runStartsAtReset : Obligations.RunStartsAtReset := by
  have faultFree (c : Config) : (State.powerOn c).FaultFree := fun f => by cases f <;> rfl
  exact ⟨fun c => ⟨rfl, rfl, rfl, rfl, rfl, rfl, rfl, rfl, rfl, rfl, Memory.read_nil, faultFree c⟩, Config.default, rfl⟩

/-- Settles O8: the step is the block's reset (`step_reset`). -/
theorem resetGivesTheResetValues : Obligations.ResetGivesTheResetValues :=
  fun _ _ h => ⟨_, step_reset h, rfl, rfl, rfl, rfl, rfl, rfl, rfl, rfl, rfl, Memory.read_nil, rfl, rfl⟩

end Sys2Proof.Machine
end

section
/-! PROOFS. What one step can do to the block, and what every step keeps: the invariant (R25, R31, R32), the recorded
faults (R34), and, while BUSY = 1, the inputs of the pending command (R49, R154). -/

namespace Sys2Proof.Machine

/-! ### What a host statement can do -/

/-- The effects of a host statement: a recorded fault, a value delivered, nothing, a reset, or, while BUSY = 0 only, an
issue or a store. -/
inductive HostEffect (s : State) : HostStmt → State → Prop where
  | fault (stmt : HostStmt) (f : Fault) : HostEffect s stmt (s.recordFault f)
  | deliver (stmt : HostStmt) (v : Word) : HostEffect s stmt (s.deliver v)
  | ignored (stmt : HostStmt) : HostEffect s stmt s
  | reset : HostEffect s .reset s.blockReset
  | issue (stmt : HostStmt) (w : Word32) (idle : s.busy = false) : HostEffect s stmt (s.issue w)
  | setLen (stmt : HostStmt) (v : Word) (idle : s.busy = false) : HostEffect s stmt (s.setLen v)
  | setOff (stmt : HostStmt) (v : Word) (idle : s.busy = false) : HostEffect s stmt (s.setOff v)
  | setOpa (stmt : HostStmt) (v : Word) (idle : s.busy = false) : HostEffect s stmt (s.setOpa v)
  | setOpb (stmt : HostStmt) (v : Word) (idle : s.busy = false) : HostEffect s stmt (s.setOpb v)
  | setOpm (stmt : HostStmt) (v : Word) (idle : s.busy = false) : HostEffect s stmt (s.setOpm v)
  | setBuf (stmt : HostStmt) (i : Nat) (bs : List Byte) (below : i + bs.length ≤ s.cfg.bufBytes)
      (idle : s.busy = false) : HostEffect s stmt (s.setBuf (s.buf.writeBytes i bs))

theorem hostRead_effect (s : State) (stmt : HostStmt) (a size : Nat) : HostEffect s stmt (hostRead s a size) := by
  rcases hostRead_cases s a size with ⟨-, e⟩ | ⟨t, -, e⟩ <;> rw [e]
  · exact .fault stmt _
  · exact .deliver stmt _

theorem hostWrite_effect (s : State) (stmt : HostStmt) (a size : Nat) (v : Word) :
    HostEffect s stmt (hostWrite s a size v) := by
  rcases hostWrite_cases s a size v with ⟨f, e⟩ | e | ⟨idle, e | e | e | e | e | e | ⟨i, bs, below, e⟩⟩ <;> rw [e]
  · exact .fault stmt f
  · exact .ignored stmt
  · exact .issue stmt _ idle
  · exact .setLen stmt v idle
  · exact .setOff stmt v idle
  · exact .setOpa stmt v idle
  · exact .setOpb stmt v idle
  · exact .setOpm stmt v idle
  · exact .setBuf stmt i bs below idle

theorem hostStep_effect (s : State) (stmt : HostStmt) : HostEffect s stmt (hostStep s stmt) := by
  cases stmt with
  | memRead a size => exact hostRead_effect s _ a size
  | memWrite a size v => exact hostWrite_effect s _ a size v
  | wait => exact hostRead_effect s .wait (regOffset .status) (regSize .status)
  | reset => exact .reset

/-! ### The invariant -/

section
variable {s t : State}

/-- The invariant speaks of STATUS, PENDING, BUF and its capacity only. -/
theorem State.Inv.congr (h : s.Inv) (status : t.status = s.status) (pending : t.pending = s.pending)
    (buf : t.buf = s.buf) (cfg : t.cfg = s.cfg) : t.Inv where
  statusLegal := status ▸ h.statusLegal
  busyPending := by rw [State.busy_eq, status, pending]; exact h.busyPending
  bufWf := buf ▸ h.bufWf
  bufWithin := by rw [buf, cfg]; exact h.bufWithin

/-- A legal STATUS of BUSY = 0 with nothing pending, over the same BUF. -/
theorem State.Inv.completed (h : s.Inv) (legal : Machine.statusLegal t.status = true) (idle : statusBusy t.status = false)
    (pending : t.pending = none) (buf : t.buf = s.buf) (cfg : t.cfg = s.cfg) : t.Inv where
  statusLegal := legal
  busyPending := by rw [State.busy_eq, idle, pending]; rfl
  bufWf := buf ▸ h.bufWf
  bufWithin := by rw [buf, cfg]; exact h.bufWithin

theorem State.Inv.withTurns (h : s.Inv) (left : List Turn) : (s.withTurns left).Inv :=
  h.congr rfl rfl rfl rfl

theorem State.Inv.issue (h : s.Inv) (w : Word32) : (s.issue w).Inv where
  statusLegal := statusIssued_legal.1
  busyPending := statusIssued_legal.2
  bufWf := h.bufWf
  bufWithin := h.bufWithin

theorem State.Inv.setBuf (h : s.Inv) {i : Nat} {bs : List Byte} (below : i + bs.length ≤ s.cfg.bufBytes) :
    (s.setBuf (s.buf.writeBytes i bs)).Inv where
  statusLegal := h.statusLegal
  busyPending := h.busyPending
  bufWf := Memory.writeBytes_wf i bs h.bufWf
  bufWithin := Memory.writeBytes_within bs h.bufWithin below

/-- An empty BUF under STATUS = 0 with nothing pending. -/
theorem State.Inv.of_reset (status : s.status = 0) (pending : s.pending = none) (buf : s.buf = []) : s.Inv where
  statusLegal := by rw [status]; decide
  busyPending := by rw [State.busy_eq, status, pending]; decide
  bufWf := by rw [buf]; exact .nil
  bufWithin := by rw [buf]; exact nofun

theorem coreStep_keeps_inv {w : Word32} (h : s.Inv) (e : coreStep w s = .next t) : t.Inv := by
  rcases coreStep_cases w s with ⟨x, e'⟩ | ⟨c, e'⟩ | ⟨r, k, e'⟩ <;> rw [e'] at e <;> cases e
  · exact h.completed statusSuccess_legal.1 statusSuccess_legal.2 rfl rfl rfl
  · obtain ⟨idle, -, -, -, legal⟩ := statusError_fields c
    exact h.completed legal idle rfl rfl rfl
  · exact h.completed statusSuccess_legal.1 statusSuccess_legal.2 rfl rfl rfl

theorem HostEffect.keeps_inv {stmt : HostStmt} (effect : HostEffect s stmt t) (h : s.Inv) : t.Inv := by
  cases effect with
  | reset => exact .of_reset rfl rfl rfl
  | issue _ w => exact h.issue w
  | setBuf _ i bs below => exact h.setBuf below
  | fault | deliver | ignored | setLen | setOff | setOpa | setOpb | setOpm => exact h.congr rfl rfl rfl rfl

theorem step_keeps_inv (h : s.Inv) (e : step s = .next t) : t.Inv := by
  rcases step_eq s with ⟨w, left, -, -, e'⟩ | ⟨stmt, left, -, e'⟩ | ⟨left, -, e'⟩ <;> rw [e'] at e
  · exact coreStep_keeps_inv (h.withTurns left) e
  · cases e
    exact (hostStep_effect (s.withTurns left) stmt).keeps_inv (h.withTurns left)
  · cases e
    exact h.withTurns left

end

/-- Settles O10: a completion ends with BUSY = 0 and PENDING = none (`coreStep_keeps_inv`), a host statement issues, or
stores below the capacity, or resets, or touches nothing the invariant speaks of (`HostEffect.keeps_inv`). -/
theorem stepKeepsTheInvariant : Obligations.StepKeepsTheInvariant :=
  fun _ _ => step_keeps_inv

/-- Settles O9: R150's values meet the invariant whatever the configuration (`State.Inv.of_reset`). -/
theorem invariantHoldsAtReset : Obligations.InvariantHoldsAtReset :=
  ⟨fun _ => .of_reset rfl rfl rfl, .of_reset rfl rfl rfl⟩

/-! ### The recorded faults -/

section
variable {s t : State} {f : Fault}

theorem FaultSet.has_record_of_has {r : FaultSet} (h : r.has f = true) (g : Fault) : (r.record g).has f = true := by
  rw [FaultSet.has_record, h, Bool.or_true]

theorem coreStep_keeps_fault {w : Word32} (h : s.faults.has f = true) (e : coreStep w s = .next t) :
    t.faults.has f = true := by
  rcases coreStep_cases w s with ⟨x, e'⟩ | ⟨c, e'⟩ | ⟨r, k, e'⟩ <;> rw [e'] at e <;> cases e
  · exact h
  · exact h
  · exact FaultSet.has_record_of_has h .unwrittenRead

theorem HostEffect.keeps_fault {stmt : HostStmt} (effect : HostEffect s stmt t) (h : s.faults.has f = true) :
    t.faults.has f = true := by
  cases effect with
  | fault _ g => exact FaultSet.has_record_of_has h g
  | deliver | ignored | reset | issue | setLen | setOff | setOpa | setOpb | setOpm | setBuf => exact h

theorem step_keeps_fault (h : s.faults.has f = true) (e : step s = .next t) : t.faults.has f = true := by
  rcases step_eq s with ⟨w, left, -, -, e'⟩ | ⟨stmt, left, -, e'⟩ | ⟨left, -, e'⟩ <;> rw [e'] at e
  · exact coreStep_keeps_fault (s := s.withTurns left) h e
  · cases e
    exact (hostStep_effect (s.withTurns left) stmt).keeps_fault h
  · cases e
    exact h

end

/-- Settles O11: no completion and no host statement, a reset included, removes a fault; a final state has none. -/
theorem faultsAreNeverRemoved : Obligations.FaultsAreNeverRemoved := by
  refine ⟨fun s t f e h => step_keeps_fault h e, fun s f h final => ?_⟩
  obtain ⟨-, faultFree⟩ := final
  exact absurd ((faultFree f).symm.trans h) nofun

/-! ### The inputs of a pending command -/

section
variable {s t : State}

/-- What a command may read, and the parameters. -/
def State.inputs (s : State) : Word × Word × Word × Word × Word × Memory × Config :=
  (s.len, s.off, s.opa, s.opb, s.opm, s.buf, s.cfg)

theorem State.inputs_eq_iff : t.inputs = s.inputs ↔ t.len = s.len ∧ t.off = s.off ∧ t.opa = s.opa ∧ t.opb = s.opb
    ∧ t.opm = s.opm ∧ t.buf = s.buf ∧ t.cfg = s.cfg := by
  simp only [State.inputs, Prod.mk.injEq]

/-- R33, R49, R153: what the core's step may change; everything else it leaves. -/
theorem coreStep_frame {w : Word32} (e : coreStep w s = .next t) : t = { s with
    res0 := t.res0, res1 := t.res1, kernel := t.kernel, status := t.status, pending := none, faults := t.faults,
    draws := t.draws } := by
  rcases coreStep_cases w s with ⟨x, e'⟩ | ⟨c, e'⟩ | ⟨r, k, e'⟩ <;> rw [e'] at e <;> cases e <;> rfl

/-- R154: while BUSY = 1 a host statement other than a reset keeps the inputs and PENDING. -/
theorem HostEffect.keeps_inputs_of_busy {stmt : HostStmt} (effect : HostEffect s stmt t) (busy : s.busy = true)
    (h : stmt ≠ .reset) : t.inputs = s.inputs ∧ t.pending = s.pending := by
  cases effect with
  | fault | deliver | ignored => exact ⟨rfl, rfl⟩
  | reset => exact absurd rfl h
  | issue _ _ idle | setLen _ _ idle | setOff _ _ idle | setOpa _ _ idle | setOpb _ _ idle | setOpm _ _ idle
  | setBuf _ _ _ _ idle => rw [idle] at busy; cases busy

theorem step_keeps_inputs_of_busy (e : step s = .next t) (busy : s.busy = true)
    (h : ∀ left, s.turns ≠ .host .reset :: left) : t.inputs = s.inputs ∧ (t.pending = s.pending ∨ t.pending = none) := by
  rcases step_eq s with ⟨w, left, -, -, e'⟩ | ⟨stmt, left, m, e'⟩ | ⟨left, -, e'⟩ <;> rw [e'] at e
  · have frame := coreStep_frame e
    exact ⟨(congrArg State.inputs frame :), .inr (congrArg State.pending frame)⟩
  · cases e
    have noReset : stmt ≠ .reset := by
      rintro rfl
      exact h left (turns_of_nextMove_host m)
    exact (hostStep_effect (s.withTurns left) stmt).keeps_inputs_of_busy busy noReset |>.imp_right .inl
  · cases e
    exact ⟨rfl, .inl rfl⟩

end

/-- Settles O55: a completion writes no input (`coreStep_frame`), and while BUSY = 1 the host's writes are not performed
(`HostEffect.keeps_inputs_of_busy`). -/
theorem inputsAreFixedWhileBusy : Obligations.InputsAreFixedWhileBusy := by
  intro s t e busy h
  obtain ⟨inputs, pending⟩ := step_keeps_inputs_of_busy e busy h
  obtain ⟨len, off, opa, opb, opm, buf, cfg⟩ := State.inputs_eq_iff.1 inputs
  exact ⟨len, off, opa, opb, opm, buf, cfg, pending⟩

end Sys2Proof.Machine
end

section
/-! PROOFS. All commands: that each completes from every state (R140, R153), its frame (R29, R33), the range of the
buckets (R136), and that a pending command's BUSY ends (R65, R157). -/

namespace Sys2Proof.Machine

section
variable {i : Instr} {s t : State} {w : Word32}

/-! ### Completion -/

/-- R140, R153: the core's step on any word ends with PENDING = none and BUSY = 0. -/
theorem coreStep_completes (w : Word32) (s : State) :
    ∃ t, coreStep w s = .next t ∧ t.pending = none ∧ t.status.getLsbD 0 = false := by
  rcases coreStep_cases w s with ⟨x, e⟩ | ⟨c, e⟩ | ⟨r, k, e⟩
  · exact ⟨_, e, rfl, statusSuccess_legal.2⟩
  · exact ⟨_, e, rfl, (statusError_fields c).1⟩
  · exact ⟨_, e, rfl, statusSuccess_legal.2⟩

theorem exec_completes (i : Instr) (s : State) : ∃ t, exec i s = .next t ∧ t.pending = none := by
  obtain ⟨t, e, pending, -⟩ := coreStep_completes (encode i) s
  exact ⟨t, (coreStep_encode i s).symm.trans e, pending⟩

theorem step_answers (s : State) : ∃ t, step s = .next t := by
  rcases step_eq s with ⟨w, left, -, -, e⟩ | ⟨stmt, left, -, e⟩ | ⟨left, -, e⟩
  · obtain ⟨t, e', -, -⟩ := coreStep_completes w (s.withTurns left)
    exact ⟨t, e.trans e'⟩
  · exact ⟨_, e⟩
  · exact ⟨_, e⟩

/-- What a command's next state is: an error's, or, in band, that of the writes its rule makes or of R48's completion. -/
theorem exec_next_cases (e : exec i s = .next t) :
    (∃ c, c ≠ .illegalCmd ∧ t = s.raiseError c)
      ∨ inBand i s.len.toNat = true
        ∧ ((∃ x : Writes, t = s.succeed x ∧ (writesRes1 i = false → x.res1 = none)
              ∧ (runsLongKernel i s.len.toNat = false → x.kernel = none))
            ∨ t = s.completeUnspecified (writesRes1 i) (runsLongKernel i s.len.toNat)) := by
  cases exec_outcome i s with
  | capacity _ _ e' => rw [e'] at e; cases e; exact .inl ⟨.lenCapacity, nofun, rfl⟩
  | band _ _ e' => rw [e'] at e; cases e; exact .inl ⟨.lenBand, nofun, rfl⟩
  | range _ _ _ e' => rw [e'] at e; cases e; exact .inl ⟨.offRange, nofun, rfl⟩
  | runs _ b _ run =>
    rcases run with ⟨-, x, e', res1, kernel⟩ | ⟨-, e'⟩ <;> rw [e'] at e <;> cases e
    · exact .inr ⟨b, .inl ⟨x, rfl, res1, kernel⟩⟩
    · exact .inr ⟨b, .inr rfl⟩

theorem exec_status_cases (e : exec i s = .next t) :
    t.status = 0x2#32 ∨ t.status = 0x206#32 ∨ t.status = 0x306#32 ∨ t.status = 0x406#32 := by
  rcases exec_next_cases e with ⟨c, legal, rfl⟩ | ⟨-, ⟨x, rfl, -, -⟩ | rfl⟩
  · cases c with
    | illegalCmd => exact absurd rfl legal
    | lenCapacity | lenBand | offRange => simp
  · simp
  · simp

/-! ### The frame -/

theorem exec_frame (e : exec i s = .next t) : t = { s with
    res0 := t.res0, res1 := t.res1, kernel := t.kernel, status := t.status, pending := none, faults := t.faults,
    draws := t.draws } :=
  coreStep_frame ((coreStep_encode i s).trans e)

theorem exec_keeps_res1 (h : writesRes1 i = false) (e : exec i s = .next t) : t.res1 = s.res1 := by
  rcases exec_next_cases e with ⟨c, -, rfl⟩ | ⟨-, ⟨x, rfl, res1, -⟩ | rfl⟩
  · rfl
  · rw [State.succeed_res1, res1 h, Option.getD_none]
  · rw [State.completeUnspecified_res1, h]
    rfl

/-- R33: KernelState changes only where the command runs the long-input kernel. -/
theorem exec_keeps_kernel (h : inBand i s.len.toNat = true → runsLongKernel i s.len.toNat = false)
    (e : exec i s = .next t) : t.kernel = s.kernel := by
  rcases exec_next_cases e with ⟨c, -, rfl⟩ | ⟨b, ⟨x, rfl, -, kernel⟩ | rfl⟩
  · rfl
  · rw [State.succeed_kernel, kernel (h b), Option.getD_none]
  · rw [State.completeUnspecified_kernel, h b]
    rfl

theorem exec_faults (e : exec i s = .next t) : t.faults = s.faults ∨ t.faults = s.faults.record .unwrittenRead := by
  rcases exec_next_cases e with ⟨c, -, rfl⟩ | ⟨-, ⟨x, rfl, -, -⟩ | rfl⟩
  · exact .inl rfl
  · exact .inl rfl
  · exact .inr rfl

theorem writesRes1_eq_false (weak : i ≠ .weakhash32) (bucket : i ≠ .hashbucket) : writesRes1 i = false := by
  simp [writesRes1, weak, bucket]

theorem runsLongKernel_eq_false (h64 : i ≠ .hash64) (long : i ≠ .hashlong) (bucket : i ≠ .hashbucket) (n : Nat) :
    runsLongKernel i n = false := by
  cases i with
  | hash64 => exact absurd rfl h64
  | hashlong => exact absurd rfl long
  | hashbucket => exact absurd rfl bucket
  | rotr | shiftmix | hashlen16 | hash128to64 | hashlen0to16 | hashlen17to32 | hashlen33to64 | weakhash32
  | bucket => rfl

/-- HASHLONG is out of its band at these lengths, and the dispatch chooses another kernel. -/
theorem runsLongKernel_of_short {n : Nat} (h : n ≤ 64) (b : inBand i n = true) : runsLongKernel i n = false := by
  cases i with
  | hash64 | hashbucket => exact decide_eq_false (by omega)
  | hashlong => have := of_decide_eq_true b; omega
  | rotr | shiftmix | hashlen16 | hash128to64 | hashlen0to16 | hashlen17to32 | hashlen33to64 | weakhash32
  | bucket => rfl

end

/-- Settles O41: the core's step completes on every word (`coreStep_completes`), so on a command's own, which is not
illegal; the other moves always answer. -/
theorem everyCommandCompletes : Obligations.EveryCommandCompletes := by
  refine ⟨fun i s => ?_, step_answers⟩
  obtain ⟨t, e, pending⟩ := exec_completes i s
  exact ⟨t, e, pending, exec_status_cases e⟩

/-- Settles O42: the fields are `exec_frame`'s; RES1 and KernelState are bounded by what the command's rule writes and by
the kernels it can run. -/
theorem commandFrame : Obligations.CommandFrame := by
  refine fun i s t e => ⟨exec_frame e, fun a => ?buf, fun weak bucket => ?res1, fun h64 long bucket => ?kernel,
    fun short => ?short, exec_faults e⟩
  case buf => rw [exec_frame e]
  case res1 => exact exec_keeps_res1 (writesRes1_eq_false weak bucket) e
  case kernel => exact exec_keeps_kernel (fun _ => runsLongKernel_eq_false h64 long bucket _) e
  case short => exact exec_keeps_kernel (runsLongKernel_of_short short) e

/-! ### The range of the buckets (R136) -/

/-- Settles O40: a bucket is a remainder by the modulus (`toNat_wordOfNat_bucketOf`); a HASHBUCKET that succeeds has
passed its capacity check, and on written input writes the bucket of its hash. -/
theorem bucketResultsAreBelowTheModulus : Obligations.BucketResultsAreBelowTheModulus := by
  have below (c : Config) (h : Word) : (wordOfNat (bucketOf c h)).toNat < c.buckets := by
    rw [toNat_wordOfNat_bucketOf]
    exact bucketOf_lt c h
  refine fun s t => ⟨fun e => ?bucket, fun e success written => ?hashbucket⟩
  case bucket =>
    rw [exec_bucket] at e
    cases e
    exact below s.cfg s.opa
  case hashbucket =>
    by_cases hc : s.len.toNat ≤ s.cfg.bufBytes
    · obtain ⟨h, hash⟩ := topHash_of_written written
      rw [exec_hashbucket_of_ok hc hash] at e
      cases e
      exact below s.cfg h.value
    · rw [exec_of_gt_capacity rfl (by omega)] at e
      cases e
      exact absurd success (statusError_ne_success .lenCapacity)

/-! ### A pending command leaves PENDING -/

section
variable {s t : State}

theorem State.Inv.pending_of_busy (h : s.Inv) (busy : s.status.getLsbD 0 = true) : ∃ w, s.pending = some w :=
  Option.isSome_iff_exists.1 (h.busyPending.symm.trans busy)

theorem HostEffect.keeps_turns {stmt : HostStmt} (effect : HostEffect s stmt t) : t.turns = s.turns := by
  cases effect <;> rfl

@[simp] theorem hostStep_turns (s : State) (stmt : HostStmt) : (hostStep s stmt).turns = s.turns :=
  (hostStep_effect s stmt).keeps_turns

theorem run_one_of_coreStep {w : Word32} {u : State} (e : step s = coreStep w u) :
    ∃ t, Sys2Proof.core.run 1 s = .next t ∧ t.pending = none := by
  obtain ⟨t, e', pending, -⟩ := coreStep_completes w u
  exact ⟨t, core_run_succ (e.trans e'), pending⟩

/-- R157, by induction on the turns still listed: the step is the completion, or takes one turn of the host's and keeps
the invariant. -/
theorem run_clears_pending {turns : List Turn} (h : s.Inv) (listed : s.turns = turns) :
    ∃ k, k ≤ turns.length + 1 ∧ ∃ t, Sys2Proof.core.run k s = .next t ∧ t.pending = none := by
  induction turns generalizing s with
  | nil =>
    cases p : s.pending with
    | none => exact ⟨0, by omega, s, rfl, p⟩
    | some w => exact ⟨1, by omega, run_one_of_coreStep (step_of_no_turn listed p)⟩
  | cons turn turns ih =>
    cases p : s.pending with
    | none => exact ⟨0, by omega, s, rfl, p⟩
    | some w =>
      rcases step_of_pending p with ⟨left, e⟩ | ⟨stmt, left, head, e⟩
      · exact ⟨1, by omega, run_one_of_coreStep e⟩
      · obtain ⟨-, rfl⟩ := List.cons.inj (head.symm.trans listed)
        obtain ⟨k, le, t, run, pending⟩ := ih (step_keeps_inv h e) (hostStep_turns _ stmt)
        exact ⟨k + 1, by simpa using le, t, (core_run_succ e).trans run, pending⟩

end

/-- Settles O57: `run_clears_pending` at the state's own turns. -/
theorem pendingCommandCompletes : Obligations.PendingCommandCompletes :=
  fun _ _ h _ => run_clears_pending h rfl

/-- Settles O56: the first step completes the pending command (`step_of_busy_wait`) and keeps the turns, so the wait is
next again, now with BUSY = 0, and delivers STATUS. -/
theorem waitEndsWithBusyClear : Obligations.WaitEndsWithBusyClear := by
  intro s left h turns busy
  obtain ⟨w, p⟩ := h.pending_of_busy busy
  obtain ⟨t, e, pending, idle⟩ := coreStep_completes w s
  have frame := coreStep_frame e
  have same_turns : t.turns = s.turns := (congrArg State.turns frame :)
  have same_got : t.got = s.got := (congrArg State.got frame :)
  have second : step t = .next ((t.withTurns left).deliver (t.status.setWidth 64)) :=
    (step_of_host_turn (same_turns.trans turns) fun _ => idle).trans (congrArg _ (hostRead_reg _ .status))
  refine ⟨t, _, _, (step_of_busy_wait turns busy p).trans e, pending, same_turns, second, rfl, ?_, rfl, ?_⟩
  · rw [State.deliver_got, State.withTurns_got, same_got]
    rfl
  · simpa [BitVec.getLsbD_setWidth] using idle

end Sys2Proof.Machine
end

section
/-! PROOFS. The host's accesses while BUSY = 1 (R154), of one BUF byte (R41), and of CMD, the operand registers, STATUS
and the results (R24 to R29). -/

namespace Sys2Proof.Machine

section
variable {s : State} {a size : Nat} {x : Access}

/-! ### Any legal access -/

theorem hostRead_of_accessOf (h : accessOf s.cfg a size = some x) : hostRead s a size = s.deliver (readAccess s x) := by
  simp only [hostRead, h]

theorem hostWrite_of_accessOf (h : accessOf s.cfg a size = some x) (v : Word) :
    hostWrite s a size v = writeAccess s v x := by
  simp only [hostWrite, h]

/-- R154: a write of an input is guarded by BUSY. -/
theorem writeAccess_of_input (h : inputAccess x = true) (s : State) (v : Word) :
    ∃ written, writeAccess s v x = s.unlessBusy written := by
  cases x with
  | reg r =>
    cases r with
    | cmd | len | off | opa | opb | opm => exact ⟨_, rfl⟩
    | status | res0 | res1 | bufcap | nbuckets => cases h
  | bufByte | bufWord => exact ⟨_, rfl⟩

theorem writeAccess_of_readOnly (h : inputAccess x = false) (s : State) (v : Word) : writeAccess s v x = s := by
  cases x with
  | reg r =>
    cases r with
    | cmd | len | off | opa | opb | opm => cases h
    | status | res0 | res1 | bufcap | nbuckets => rfl
  | bufByte | bufWord => cases h

end

/-- Settles O48: a write of an input is guarded (`writeAccess_of_input`), one of a read-only register is ignored, and no
legal read looks at BUSY before it delivers. -/
theorem writesWhileBusy : Obligations.WritesWhileBusy := by
  refine fun s a size v x legal busy => ⟨fun input => ?input, fun readOnly => ?readOnly,
    ⟨_, hostRead_of_accessOf legal⟩⟩
  case input =>
    obtain ⟨written, guarded⟩ := writeAccess_of_input input s v
    exact ((hostWrite_of_accessOf legal v).trans guarded).trans (unlessBusy_of_busy busy written)
  case readOnly => exact (hostWrite_of_accessOf legal v).trans (writeAccess_of_readOnly readOnly s v)

/-! ### One BUF byte -/

/-- Settles O50: the accesses are `hostWrite_bufByte` and `hostRead_bufByte`, and a write changes the one index
(`Memory.read_write_other`). -/
theorem byteAccessesOfBuf : Obligations.ByteAccessesOfBuf := by
  refine fun s k h => ⟨fun v idle => ⟨_, hostWrite_bufByte h idle v, ?same, fun a ha => ?other⟩, fun b hb => ?read⟩
  case same => rw [Memory.read_write_same, byteOf_zero]
  case other => exact Memory.read_write_other s.buf _ ha
  case read =>
    rw [hostRead_bufByte h, hostByte_of_read _ hb]
    rfl

/-! ### The registers -/

/-- A write of a register that R154 guards, while BUSY = 0. -/
theorem hostWrite_reg_of_idle {s written : State} {r : WinReg} {v : Word} (idle : s.status.getLsbD 0 = false)
    (guarded : writeReg s v r = s.unlessBusy written) : hostWrite s (regOffset r) (regSize r) v = written :=
  ((hostWrite_reg s r v).trans guarded).trans (unlessBusy_of_idle idle written)

/-- R155: the results read as they are while BUSY = 0. -/
theorem readReg_results_of_idle {s : State} (idle : s.status.getLsbD 0 = false) :
    readReg s .res0 = s.res0 ∧ readReg s .res1 = s.res1 :=
  ⟨if_neg (ne_true_of_eq_false idle), if_neg (ne_true_of_eq_false idle)⟩

/-- Settles O51: CMD reads 0; its write is the issue while BUSY = 0 and BusyWrite while BUSY = 1. -/
theorem cmdRegister : Obligations.CmdRegister := by
  refine fun s => ⟨hostRead_reg s .cmd, fun v => ⟨fun idle => ?issue, fun busy => ?nested⟩⟩
  case issue => exact hostWrite_reg_of_idle (r := .cmd) (v := v) idle rfl
  case nested => exact (hostWrite_reg s .cmd v).trans (unlessBusy_of_busy busy _)

/-- Settles O52: each operand register's write is guarded by BUSY and stores the word (`hostWrite_reg_of_idle`), and its
read delivers the register. -/
theorem operandRegistersHoldWhatIsWritten : Obligations.OperandRegistersHoldWhatIsWritten := by
  refine fun s => ⟨fun v idle => ?writes, hostRead_reg s .len, hostRead_reg s .off, hostRead_reg s .opa,
    hostRead_reg s .opb, hostRead_reg s .opm⟩
  have stores {r : WinReg} {written : State} (guarded : writeReg s v r = s.unlessBusy written) :
      hostWrite s (regOffset r) (regSize r) v = written := hostWrite_reg_of_idle idle guarded
  exact ⟨stores (r := .len) rfl, stores (r := .off) rfl, stores (r := .opa) rfl, stores (r := .opb) rfl,
    stores (r := .opm) rfl⟩

/-- Settles O54: the three registers have no write; RES0 and RES1 are themselves while BUSY = 0. -/
theorem statusAndResultsReadOnly : Obligations.StatusAndResultsReadOnly := by
  refine fun s => ⟨fun v => ⟨hostWrite_reg s .status v, hostWrite_reg s .res0 v, hostWrite_reg s .res1 v⟩,
    hostRead_reg s .status, fun idle => ⟨?res0, ?res1⟩⟩
  case res0 => exact (hostRead_reg s .res0).trans (congrArg s.deliver (readReg_results_of_idle idle).1)
  case res1 => exact (hostRead_reg s .res1).trans (congrArg s.deliver (readReg_results_of_idle idle).2)

end Sys2Proof.Machine
end

section
/-! PROOFS. Encoding examples and round trip (R60 to R62), and the five word commands (R141). -/

namespace Sys2Proof

/-- R43, R60: the four bytes of a word make the word again: a bit is the one of the byte it falls in, and the other three
bytes have none there. -/
theorem wordOfBytes_bytes (w : Word32) :
    wordOfBytes (w.extractLsb' 0 8) (w.extractLsb' 8 8) (w.extractLsb' 16 8) (w.extractLsb' 24 8) = w := by
  apply BitVec.eq_of_getLsbD_eq
  intro i hi
  simp only [wordOfBytes, BitVec.getLsbD_or, BitVec.getLsbD_shiftLeft, BitVec.getLsbD_setWidth,
    BitVec.getLsbD_extractLsb']
  obtain h | h | h | h : i < 8 ∨ (8 ≤ i ∧ i < 16) ∨ (16 ≤ i ∧ i < 24) ∨ 24 ≤ i := by omega
  all_goals simp (disch := omega) [decide_eq_true, decide_eq_false]

theorem decodeBytes_bytesOfWord (w : Word32) (i : Instr) (d : decode w = .ok i) (rest : List Byte) :
    decodeBytes (bytesOfWord w ++ rest) = .ok (i, rest) := by
  simp only [bytesOfWord, List.cons_append, List.nil_append, decodeBytes, wordOfBytes_bytes, d]

/-- Settles O1: the twelve words are the commands' encodings (`decode_encode`); the four illegal ones are evaluated. -/
theorem decodesTheSpecWords : Obligations.DecodesTheSpecWords :=
  ⟨decode_encode .rotr, decode_encode .shiftmix, decode_encode .hashlen16, decode_encode .hash128to64,
    decode_encode .hash64, decode_encode .hashlen0to16, decode_encode .hashlen17to32, decode_encode .hashlen33to64,
    decode_encode .hashlong, decode_encode .weakhash32, decode_encode .bucket, decode_encode .hashbucket,
    by decide, by decide, by decide, by decide⟩

/-- Settles O2: the bytes of a word make the word again (`wordOfBytes_bytes`), whatever follows them. -/
theorem decodeOfEncodeIsTheCommand : Obligations.DecodeOfEncodeIsTheCommand :=
  fun i _ => ⟨decode_encode i, decodeBytes_bytesOfWord (encode i) i (decode_encode i)⟩

end Sys2Proof

namespace Sys2Proof.Machine

/-- Settles O58: each command's next state, with its function's formula written out. -/
theorem wordCommandsAlwaysSucceed : Obligations.WordCommandsAlwaysSucceed :=
  fun s => ⟨exec_rotr s, exec_shiftmix s, exec_hashlen16 s, exec_hash128to64 s, exec_bucket s⟩

end Sys2Proof.Machine
end
